-- ==== Sys2Proof/Word.lean ====
section
/-! DEFINITION. The words of the PNH6424: bytes, 64 B lines, 64-bit masks, and the byte-addressed memories
of the part in one canonical form. -/

namespace Sys2Proof

/-- A byte. -/
abbrev Byte := BitVec 8

/-- A 64 B line; line byte i is bits 8i+7..8i (little-endian, R6). -/
abbrev Line := BitVec 512

/-- A mask of 64 bits: a directory vector, the lines of a hank, a byte-enable mask. -/
abbrev Mask := BitVec 64

/-- An addressed buffer of bytes: cells in strictly rising address, none equal to 0, which is what an address
that is not listed reads as (assumption 5). -/
abbrev Memory := List Host.Cell

end Sys2Proof
end

