-- ==== Sys2Proof/Syntax.lean ====
section
/-! DEFINITION. The commands of the PNH6424 and their operands: what arrives at the part from outside, and the
indivisible steps of its own engines (one constructor of `Instr` per row of the opcode table). -/

namespace Sys2Proof

/-- Table MSG-1: the messages between an agent or a module and the home, in the order of their opcodes. -/
inductive Op where
  | rdShared | rdOwn | rdOnce | upgrade | flushLine | wrFull | wrPart | atomic
  | evictClean | wbDirty
  | snpInv | snpShare | snpRecall
  | rspI | rspS | rspWbPending | rspIData | rspSData
  | grantE | wrAck | wbAck | cmpErr | dataS | dataE | dataI | atomicData
  | memRd | memZero | memWrAck | memWr | memRdData
  deriving DecidableEq, Repr, Inhabited

/-- Table MSG-2: the fields of the common header slot, OPCODE apart. -/
structure Hdr where
  /-- SRC, 8 bits -/
  src : Nat := 0
  /-- DEST, 8 bits -/
  dest : Nat := 0
  /-- TAG, 12 bits -/
  tag : Nat := 0
  /-- LADDR, 46 bits -/
  laddr : Nat := 0
  /-- ATTR (Table MSG-3) -/
  attr : BitVec 8 := 0
  /-- AOP, 8 bits -/
  aop : Nat := 0
  /-- SIZE, 8 bits -/
  size : Nat := 0
  /-- TS, 32 bits -/
  ts : Nat := 0
  deriving DecidableEq, Repr, Inhabited

/-- R131, R141: what the reads of a pass meet in the directory-cache set and the hank-tag-cache set of its line. -/
inductive WayErr where
  /-- no error -/
  | none
  /-- an error SEC-DED corrects, or one identity copy replaced by the other -/
  | corrected
  /-- an uncorrectable state word in a directory-cache way of the set: the line's own, or one a victim choice reads -/
  | stateWord (way : Fin 16)
  /-- both identity copies of a directory-cache way of the set uncorrectable -/
  | identity (way : Fin 16)
  /-- a hank-tag-cache way of the set fails its parity check -/
  | tagParity (way : Fin 8)
  /-- a page-map-cache way of the set fails its parity check (R171) -/
  | mapParity (way : Fin 8)
  deriving DecidableEq, Repr, Inhabited

/-- The line that a pass is for, and what the reads of the pass meet in the caches. -/
structure LinePass where
  /-- LADDR, 46 bits -/
  laddr : Nat := 0
  /-- what the pass meets -/
  found : WayErr := .none
  deriving DecidableEq, Repr, Inhabited

/-- The slice that a pass is of, and what the reads of the pass meet in the caches. -/
structure SlicePass where
  /-- the slice -/
  slice : Fin 16 := 0
  /-- what the pass meets -/
  found : WayErr := .none
  deriving DecidableEq, Repr, Inhabited

/-- A message from an agent for a slice: one that arrives at a port now and is taken in the pass, or the head of a
crossbar queue (put there by FLIT_RECEIVED or by an earlier arrival that could not be taken), R12, R16. -/
inductive MsgIn where
  /-- arrives at the port: header fields, the 64 data bytes and META (R64) -/
  | arrive (port : Fin 24) (hdr : Hdr) (data : Line) (metaw : BitVec 64) (found : WayErr := .none)
  /-- the oldest message of the command's opcode class queued at the port for the slice -/
  | queued (port : Fin 24) (slice : Fin 16) (found : WayErr := .none)
  deriving DecidableEq, Repr, Inhabited

/-- R270: how a mailbox command reaches the device that runs it. -/
inductive Via where
  /-- the primary host mailbox -/
  | primary
  /-- the secondary mailbox (MCTP on SMBus) -/
  | secondary
  /-- relayed over the ring (R215); no command row arrives this way, RELAY_CMD does -/
  | relay
  deriving DecidableEq, Repr, Inhabited

/-- Table MBX-1: the command area as written before the doorbell, OPCODE apart. -/
structure CmdArea where
  /-- mailbox -/
  via : Via := .primary
  /-- TARGET_DEVICE, byte 2 -/
  target : Nat := 255
  /-- bytes 3, 6-7 and 12-15 as one number: the reserved fields, zero when well made -/
  resv : Nat := 0
  /-- PAYLOAD_LEN, bytes 4-5 -/
  payloadLen : Nat := 0
  /-- COOKIE, bytes 8-11 -/
  cookie : Nat := 0
  /-- PAYLOAD, from byte 16 -/
  payload : List Byte := []
  deriving DecidableEq, Repr, Inhabited

/-- A ring frame as received (Table DOM-2), TYPE apart: its header bytes, its payload and the CRC field. -/
structure RingFrame where
  /-- DST -/
  dst : Nat := 0
  /-- SRC -/
  src : Nat := 0
  /-- HOPS -/
  hops : Nat := 0
  /-- PAYLOAD, at most 240 bytes -/
  payload : List Byte := []
  /-- the received CRC field; none stands for the CRC the content gives -/
  crc : Option Nat := none
  deriving DecidableEq, Repr, Inhabited

/-- What a receiver of an HBM read finds: symbols changed in the stored codeword (R227), and the line whose
codeword the access returned in place of the one addressed, if any (R230, MISADDR). -/
structure HbmErr where
  /-- symbol number 0-71 and the bits flipped in it -/
  flips : List (Nat × Byte) := []
  /-- HBM line number returned in place of the one addressed -/
  other : Option Nat := none
  deriving DecidableEq, Repr, Inhabited

/-- R16, R230: what a read of one HBM line meets, and what the reads of the pass that takes it meet in the caches. -/
structure ReadMet where
  /-- the errors of the line -/
  err : HbmErr := {}
  /-- what the pass meets -/
  found : WayErr := .none
  deriving DecidableEq, Repr, Inhabited

/-- R119, R132: what the reads of a store set meet, quarter by quarter, and what the pass that takes it meets in the caches. -/
structure SetMet where
  /-- the errors of the four lines of the set -/
  errs : List (Fin 4 × HbmErr) := []
  /-- what the pass meets -/
  found : WayErr := .none
  deriving DecidableEq, Repr, Inhabited

/-- R76, R203: the line of a MEM_WR_ACK, and whether the MAC of its flit on a CXL link with IDE holds. -/
structure MemAck where
  /-- MADDR, 46 bits -/
  maddr : Nat := 0
  /-- the MAC holds -/
  mac : Bool := true
  deriving DecidableEq, Repr, Inhabited

/-- R123, R142: the set whose write completes. -/
inductive TableSet where
  /-- a store set of the slice; a merge of the write may have found one of its lines uncorrectable (R132) -/
  | store (set : Nat) (lost : Option (Fin 4) := .none)
  /-- a local set of the slice's hank-tag table -/
  | tags (ls : Nat)
  deriving DecidableEq, Repr, Inhabited

/-- A memory message from a module (Table MSG-12) with its data slots. -/
structure MemIn where
  /-- TAG -/
  tag : Nat := 0
  /-- MADDR -/
  maddr : Nat := 0
  /-- MATTR -/
  mattr : BitVec 8 := 0
  /-- CHK_HI: codeword bytes 72-79 (R75) -/
  chkHi : BitVec 64 := 0
  /-- the 64 data bytes -/
  data : Line := 0
  /-- META: codeword bytes 64-71, or the Line form (R75) -/
  metaw : BitVec 64 := 0
  /-- of an answer on a MEM_CXL port: the MAC of its flits checks (R203); not looked at on a link in clear -/
  mac : Bool := true
  deriving DecidableEq, Repr, Inhabited

/-- A CXL.mem message from a host (R196), opcode apart. -/
structure CxlMsg where
  /-- host physical address of the line, in bytes -/
  addr : Nat := 0
  /-- CXL tag -/
  tag : Nat := 0
  /-- MetaField: 3 NoOp, else the metadata state -/
  metaField : Nat := 0
  /-- MetaValue: 0 I, 2 A, 3 S -/
  metaValue : Nat := 0
  /-- SnpType: 0 NoOp, 1 SnpData, 2 SnpCur, 3 SnpInv; of a BIRsp: 0 BIRspI, 1 BIRspS, others not supported -/
  snpType : Nat := 0
  /-- 64 data bytes -/
  data : Line := 0
  /-- byte enables of MemWrPtl -/
  be : BitVec 64 := 0
  /-- Poison bit of a RwD -/
  poison : Bool := false
  /-- of a MemInv: the opcode is MemInvNT -/
  nt : Bool := false
  /-- the M2S opcode is none of Table CXL-3 -/
  other : Bool := false
  /-- the MAC of the flits that carried the message checks (R203); not looked at on a link in clear -/
  mac : Bool := true
  deriving DecidableEq, Repr, Inhabited

/-- What enumeration finds of a CXL expander (R201). -/
structure ExpanderDesc where
  /-- volatile capacity in bytes -/
  capacity : Nat := 0
  /-- maker and product of its identity -/
  maker : Nat := 0
  product : Nat := 0
  /-- it reports HDM-DB -/
  hdmDb : Bool := false
  /-- the commit of its decoder 0 succeeds -/
  commits : Bool := true
  /-- rate of its link, 32 or 64 GT/s, and lanes, 4, 2 or 1 (Table CXL-1) -/
  rate : Nat := 64
  width : Nat := 4
  /-- digest of its certificate chain, when it answers SPDM -/
  digest : List Byte := []
  /-- it offers CXL IDE -/
  ide : Bool := false
  deriving DecidableEq, Repr, Inhabited

/-- Which epoch an advance concerns (R222). -/
inductive EpochOf where
  | port (p : Fin 24)
  | agent (a : Fin 256)
  deriving DecidableEq, Repr, Inhabited

/-- R257, R261: whose auditor or census walker acts. -/
inductive Auditor where
  | slice (k : Fin 16)
  | port (p : Fin 24)
  | allocator
  deriving DecidableEq, Repr, Inhabited

/-- A triplicated word (its SUB of R263), its index, and its three copies (R239): each as what it differs in from the word. -/
structure TmrUpset where
  /-- 0 credit counters of a port, 1 address map, 2 partition table root, 3 epoch table, 4 ledger root (R239) -/
  word : Nat := 0
  /-- the port of credit counters; the agent of an epoch, or 256 and its port -/
  index : Nat := 0
  /-- the bits in which copies 0, 1 and 2 differ from the word -/
  copies : BitVec 64 × BitVec 64 × BitVec 64 := (0, 0, 0)
  deriving DecidableEq, Repr, Inhabited

/-- R240: what a fetch trap meets: whether the handler itself was running, and what the sources of the page hold. -/
structure PageSources where
  /-- the UE struck while the boot-ROM handler ran -/
  inHandler : Bool := false
  /-- the read of the page from the image copy in HBM is a UE -/
  imageUe : Bool := false
  /-- the digest of the image copy's page matches -/
  imageDigest : Bool := true
  /-- the digest of the active flash slot's page matches -/
  flashDigest : Bool := true
  deriving DecidableEq, Repr, Inhabited

/-- What a patrol read reads (R246). -/
inductive PatrolTarget where
  /-- the next HBM line of the patrol -/
  | hbm
  /-- the next line of the patrol of a memory port, which MEM_RD asks for -/
  | backing (port : Fin 24)
  deriving DecidableEq, Repr, Inhabited

/-- The commands of the PNH6424: one constructor per row of the table of operations and events. -/
inductive Instr where
  /-- IDENTIFY (R426): Returns device identity, firmware versions, slots, security version, device index and role. -/
  | identify (area : CmdArea)
  /-- GET_STATUS (R426): Returns cache state, containment, readiness, thermal step, port masks, O_LINES, free extents and time since PWRGOOD. -/
  | getStatus (area : CmdArea)
  /-- CFG_BEGIN (R286): Opens a device-scope or domain-scope configuration transaction and returns a new TXN_ID. -/
  | cfgBegin (area : CmdArea)
  /-- CFG_SET (R287): Stages a checked value for one key and index in the open transaction. -/
  | cfgSet (area : CmdArea)
  /-- CFG_GET (R301): Returns the value in force, or the staged value, of one key and index. -/
  | cfgGet (area : CmdArea)
  /-- CFG_COMMIT (R288): Validates the staged values and applies them in a commit window, through a disruptive drain, or by two-phase domain commit. -/
  | cfgCommit (area : CmdArea)
  /-- CFG_ROLLBACK (R291): Discards every staged value and ends the open transaction. -/
  | cfgRollback (area : CmdArea)
  /-- PORT_STATUS (R218): Returns a port's personality, link state, generation, lanes, epoch, sump count, replays and active agent IDs. -/
  | portStatus (area : CmdArea)
  /-- PORT_MAINT (R302): Drains a port and places it in MAINT, or takes it out of MAINT into DISCOVERY. -/
  | portMaint (area : CmdArea)
  /-- PORT_CALIBRATE (R57): Runs a full port calibration in MAINT, or defers it until the port next enters MAINT. -/
  | portCalibrate (area : CmdArea)
  /-- PORT_RESET (R46): Takes a port's link down into DETECT. -/
  | portReset (area : CmdArea)
  /-- PART_STATUS (R177): Returns a partition's allocation, LOST extents, TRIPLE extents and REFUSED flag, and optionally clears REFUSED. -/
  | partStatus (area : CmdArea)
  /-- POOL_STATUS (R165): Returns pool free, retired and total extents and the descriptor of each memory port. -/
  | poolStatus (area : CmdArea)
  /-- DISCARD_RANGE (R182): Destroys the value of every line in a fabric range through internal transactions and frees the extents left empty. -/
  | discardRange (area : CmdArea)
  /-- POOL_ERASE (R304): Writes a new pool generation, frees every allocated or LOST extent and clears the page map and directory. -/
  | poolErase (area : CmdArea)
  /-- PAGE_COPY (R305): Copies a fabric range page by page through internal RD_ONCE and WR_FULL requests under agent ID 255. -/
  | pageCopy (area : CmdArea)
  /-- CACHE_DISABLE (R156): Moves the cache to DRAINING and completes when O_LINES reaches zero and the cache is DISABLED. -/
  | cacheDisable (area : CmdArea)
  /-- CACHE_ENABLE (R158): Returns the cache to ENABLED from DRAINING, or from DISABLED once the tag sweep has finished. -/
  | cacheEnable (area : CmdArea)
  /-- CACHE_FLUSH (R159): Runs the drain walker with the cache left ENABLED so that every O line reaches backing memory. -/
  | cacheFlush (area : CmdArea)
  /-- PERSIST_FLUSH (R160): Flushes X lines and O lines of a fabric range to backing memory and reports the extents made LOST. -/
  | persistFlush (area : CmdArea)
  /-- CACHE_STATUS (R155): Returns cache state, walker activity, frame counts, O_LINES, filled write-buffer entries and excluded banks. -/
  | cacheStatus (area : CmdArea)
  /-- AGENT_STATUS (R218): Returns an agent ID's binding word and whether it has been declared failed since it was last bound. -/
  | agentStatus (area : CmdArea)
  /-- AGENT_DISOWN (R307): Advances a caching ID's epoch and sweeps its bits out of every directory of the device. -/
  | agentDisown (area : CmdArea)
  /-- SCRUB_RANGE (R248): Starts a scrub of an HBM range or a memory-port range at a given rate. -/
  | scrubRange (area : CmdArea)
  /-- SCRUB_STATUS (R248): Returns the summary of the scrub in progress or of the last scrub. -/
  | scrubStatus (area : CmdArea)
  /-- RETIRE (R250): Permanently retires a backing extent, a frame or an HBM bank and records the retirement in the ledger. -/
  | retire (area : CmdArea)
  /-- LOG_READ (R309): Returns error-log records in SEQ order from START_SEQ. -/
  | logRead (area : CmdArea)
  /-- CTR_PROGRAM (R320): Sets a programmable counter's event, qualifier and enable. -/
  | ctrProgram (area : CmdArea)
  /-- CTR_WRITE (R319): Writes a counter value and optionally clears its OVF bit. -/
  | ctrWrite (area : CmdArea)
  /-- CTR_FREEZE (R323): Freezes or releases every programmable counter of a group in one core cycle. -/
  | ctrFreeze (area : CmdArea)
  /-- CTR_READ (R321): Returns a run of counter words, each sampled in one core cycle. -/
  | ctrRead (area : CmdArea)
  /-- TRACE_CONTROL (R333): Starts or stops Skein trace, or discards the trace buffer contents. -/
  | traceControl (area : CmdArea)
  /-- SLOT_READ (R328): Returns a slice's core cycles and its four slot-class totals, sampled in one core cycle. -/
  | slotRead (area : CmdArea)
  /-- HIST_READ (R329): Returns the 32 latency-histogram bins of one port and class. -/
  | histRead (area : CmdArea)
  /-- CLK_GATE (R350): Sets or clears the gate request of a node of the clock-gating tree, or refuses it while a child is busy. -/
  | clkGate (area : CmdArea)
  /-- CLK_STATUS (R347): Returns REFCLK and fallback-oscillator status, the SWITCH_FORCED count and the gated slice and port masks. -/
  | clkStatus (area : CmdArea)
  /-- SELFTEST (R255): Defers an extended checker self-test to the next reset, or samples the aging monitors. -/
  | selftest (area : CmdArea)
  /-- LEDGER_READ (R375): Returns the entries of one ledger area. -/
  | ledgerRead (area : CmdArea)
  /-- CALENDAR_SET (R378): Loads the calendar with UTC seconds and nanoseconds and sets its VALID bit. -/
  | calendarSet (area : CmdArea)
  /-- FW_STAGE (R312): Collects a firmware image chunk, and on LAST verifies the image and programs it into the inactive slot. -/
  | fwStage (area : CmdArea)
  /-- FW_ACTIVATE (R313): Records a verified slot as BOOT_PREF for the next full reset. -/
  | fwActivate (area : CmdArea)
  /-- FW_ACTIVATE_LIVE (R392): Replaces the running firmware with the image of the other slot while coherence service continues. -/
  | fwActivateLive (area : CmdArea)
  /-- DOMAIN_FORM (R314): Starts a new ring formation under a new FORM_ID. -/
  | domainForm (area : CmdArea)
  /-- DOMAIN_STATUS (R216): Returns ring state, N, the interleave and per-device readiness, fault, containment, divergence and time masks. -/
  | domainStatus (area : CmdArea)
  /-- GET_EVENT_RECORDS (R200): CXL mailbox command that returns a port's event records. -/
  | getEventRecords (port : Fin 24) (payload : List Byte)
  /-- CLEAR_EVENT_RECORDS (R200): CXL mailbox command that clears a port's event records. -/
  | clearEventRecords (port : Fin 24) (payload : List Byte)
  /-- GET_EVENT_INTERRUPT_POLICY (R200): CXL mailbox command that returns the event interrupt policy. -/
  | getEventInterruptPolicy (port : Fin 24) (payload : List Byte)
  /-- SET_EVENT_INTERRUPT_POLICY (R200): CXL mailbox command that sets the MSI/MSI-X event interrupt policy. -/
  | setEventInterruptPolicy (port : Fin 24) (payload : List Byte)
  /-- GET_FW_INFO (R200): CXL mailbox command that reports firmware slots A and B and the active slot. -/
  | getFwInfo (port : Fin 24) (payload : List Byte)
  /-- GET_TIMESTAMP (R200): CXL mailbox command that returns the port's event-record timestamp. -/
  | getTimestamp (port : Fin 24) (payload : List Byte)
  /-- SET_TIMESTAMP (R200): CXL mailbox command that sets the port's event-record timestamp without changing the calendar. -/
  | setTimestamp (port : Fin 24) (payload : List Byte)
  /-- GET_SUPPORTED_LOGS (R200): CXL mailbox command that lists the Command Effects Log. -/
  | getSupportedLogs (port : Fin 24) (payload : List Byte)
  /-- GET_LOG (R200): CXL mailbox command that returns the Command Effects Log. -/
  | getLog (port : Fin 24) (payload : List Byte)
  /-- IDENTIFY_MEMORY_DEVICE (R200): CXL mailbox command that reports total and volatile capacity equal to the DVSEC range size. -/
  | identifyMemoryDevice (port : Fin 24) (payload : List Byte)
  /-- GET_PARTITION_INFO (R200): CXL mailbox command that reports volatile capacity equal to the total. -/
  | getPartitionInfo (port : Fin 24) (payload : List Byte)
  /-- GET_HEALTH_INFO (R200): CXL mailbox command that reports the highest HBM temperature and life used from the aging margin. -/
  | getHealthInfo (port : Fin 24) (payload : List Byte)
  /-- CXL_UNSUPPORTED_OPCODE (R200): A CXL memory device mailbox opcode outside the supported set is answered Unsupported. -/
  | cxlUnsupportedOpcode (port : Fin 24) (opcode : Nat) (payload : List Byte)
  /-- GET_VERSION (R382): SPDM request answered with versions 1.2 and 1.3. -/
  | getVersion (inst : Nat)
  /-- GET_CAPABILITIES (R382): SPDM request answered with the supported capabilities. -/
  | getCapabilities (inst : Nat)
  /-- NEGOTIATE_ALGORITHMS (R382): SPDM request answered with SM2, SM3 and SM4 selections, or with ERROR when none is offered. -/
  | negotiateAlgorithms (inst : Nat) (offersSm : Bool)
  /-- GET_DIGESTS (R382): SPDM request answered with the digest of the certificate chain in slot 0. -/
  | getDigests (inst : Nat)
  /-- GET_CERTIFICATE (R381): SPDM request answered with the certificate chain of slot 0. -/
  | getCertificate (inst : Nat) (slot : Nat) (offset : Nat) (length : Nat)
  /-- CHALLENGE (R382): SPDM request answered with a response signed by the device identity key. -/
  | challenge (inst : Nat) (slot : Nat) (nonce : Nat)
  /-- GET_MEASUREMENTS (R383): SPDM request answered with the firmware, configuration and expander measurements. -/
  | getMeasurements (inst : Nat) (index : Nat) (signed : Bool) (nonce : Nat)
  /-- KEY_EXCHANGE (R382): SPDM request that begins a secured session. -/
  | keyExchange (inst : Nat) (slot : Nat) (exchange : Nat)
  /-- FINISH (R382): SPDM request that completes the establishment of a secured session. -/
  | finish (inst : Nat) (session : Nat)
  /-- END_SESSION (R382): SPDM request that ends a secured session while leaving programmed link keys in force. -/
  | endSession (inst : Nat) (session : Nat)
  /-- SPDM_UNSUPPORTED_REQUEST (R382): An SPDM request outside the supported set is answered with ERROR UnsupportedRequest. -/
  | spdmUnsupportedRequest (inst : Nat) (code : Nat)
  /-- KEY_PROG (R393): Link-key message that loads a key and IV_SEED for one direction and phase of a port. -/
  | keyProg (session : Nat) (port : Fin 24) (receive : Bool) (phase : Bool) (key : Nat) (iv : Nat)
  /-- KEY_GO (R394): Link-key message that makes a phase usable, after which the transmitter switches at the next run boundary. -/
  | keyGo (session : Nat) (port : Fin 24) (receive : Bool) (phase : Bool)
  /-- KEY_QUERY (R393): Link-key message that reports a port's loaded and usable keys and its encryption state. -/
  | keyQuery (session : Nat) (port : Fin 24)
  /-- KEY_ERASE (R393): Link-key message that erases every key of a port and clears its waiting state. -/
  | keyErase (session : Nat) (port : Fin 24)
  /-- SET_ENDPOINT_ID (R407): MCTP control message answered by hardware that sets the endpoint ID. -/
  | setEndpointId (eid : Nat)
  /-- GET_ENDPOINT_ID (R407): MCTP control message answered by hardware with the endpoint ID. -/
  | getEndpointId
  /-- GET_ENDPOINT_UUID (R407): MCTP control message answered by hardware with the endpoint UUID. -/
  | getEndpointUuid
  /-- GET_MCTP_VERSION_SUPPORT (R407): MCTP control message answered by hardware with the supported MCTP versions. -/
  | getMctpVersionSupport
  /-- GET_MESSAGE_TYPE_SUPPORT (R407): MCTP control message answered by hardware with message types 0x00, 0x05, 0x06 and 0x7E. -/
  | getMessageTypeSupport
  /-- DOE_ABORT (R404): Discards any DOE data object in progress and leaves SPDM sessions open. -/
  | doeAbort
  /-- MBX_DONE_CLEAR (R273): Writing 1 to MBX_STATUS.DONE returns the primary mailbox from DONE to IDLE and clears RING_IGNORED. -/
  | mbxDoneClear
  /-- NQ_DATA_READ (R281): An aligned 64-bit read of NQ_DATA pops the head word of the notification queue, or returns zeros when it is empty. -/
  | nqDataRead (wide : Bool)
  /-- NQ_LOST_READ (R280): A read of NQ_LOST returns the count of dropped packets and clears it. -/
  | nqLostRead
  /-- TRACE_READ (R335): An aligned 64-bit read of TRACE_READ or of the BAR4 trace window pops the next trace word. -/
  | traceRead (wide : Bool)
  /-- ERROR_LOG_WINDOW_READ (R405): A read of the BAR4 error-log window returns one slot from a single HBM read, writing an error record if the line is uncorrectable. -/
  | errorLogWindowRead (offset : Nat) (width : Nat) (ue : Bool)
  /-- SPINDLE_RESTART (R402): A SPINDLE_CTRL write of RESTART with KEY 0x5350 while Spindle is HALTED starts a SPINDLE reset and reload. -/
  | spindleRestart (value : Nat)
  /-- WM_CROSSED_CLEAR (R285): Clearing CROSSED through WM_STATE or WM_SUMMARY re-arms a watermark and reloads its PEAK. -/
  | wmCrossedClear (wm : Fin 49)
  /-- MSIX_UNMASK (R403): Enabling MSI-X or unmasking a vector sends one message for the events held for that vector. -/
  | msixUnmask (vector : Option (Fin 32))
  /-- PCIE_POWER_STATE_CHANGE (R397): A move between D0 and D3hot holds MSI-X messages in D3hot and sends them after the return to D0. -/
  | pciePowerStateChange (d3 : Bool)
  /-- REGISTER_WRITE (R9): A write to a BAR0 location that has no behaviour of its own sets RW fields and ignores RO and reserved bits. -/
  | registerWrite (offset : Nat) (width : Nat) (value : Nat)
  /-- PWRGOOD_ASSERT (R352): Assertion of PWRGOOD starts a POWER_ON reset and the full start-up sequence. -/
  | pwrgoodAssert
  /-- PWRGOOD_DEASSERT (R361): Deassertion of PWRGOOD resets everything, deasserts FAULT_N and invalidates the calendar. -/
  | pwrgoodDeassert
  /-- RESET_N_ASSERT (R354): Assertion of RESET_N latches CLEAN and starts a PIN reset of everything but the always-on island. -/
  | resetNAssert
  /-- RESET_N_DEASSERT (R204): Deassertion of RESET_N samples the straps and lets start-up proceed from step 3. -/
  | resetNDeassert (straps : BitVec 4)
  /-- PERST_N_ASSERT (R362): Assertion of PERST_N resets the PCIe endpoint alone while coherence service continues. -/
  | perstNAssert
  /-- PERST_N_DEASSERT (R362): Deassertion of PERST_N lets the endpoint become configuration-ready within 20 ms. -/
  | perstNDeassert
  /-- REFCLK_GAP (R343): The self-timed detector sets the sticky REFCLK_GAP latch when no REFCLK edge has arrived for 200 ns. -/
  | refclkGap
  /-- OSCILLATOR_QUALIFIED (R341): After 4,096 good fallback cycles the oscillator is qualified and the clock monitor is enabled. -/
  | oscillatorQualified
  /-- MONITOR_WINDOW_END (R342): At the end of each monitor window REFCLK qualification is counted toward, granted or lost. -/
  | monitorWindowEnd (good : Bool)
  /-- FALLBACK_CHECK_WINDOW (R345): The end of a reciprocal window marks the fallback oscillator unavailable or available again. -/
  | fallbackCheckWindow (good : Bool)
  /-- PLL_LOCK (R340): A PLL achieves lock after start of locking. -/
  | pllLock (pll : Fin 32)
  /-- PLL_LOSS_OF_LOCK (R340): A PLL loses lock, causing a CLOCK_LOSS reset, a bypass switch or a port link down depending on the PLL. -/
  | pllLossOfLock (pll : Fin 32)
  /-- CLOCK_SWITCH (R346): A domain stops, changes its clock source and restarts, losing four outgoing and four incoming cycles. -/
  | clockSwitch (domain : Nat)
  /-- SWITCH_FORCED (R347): At incoming edge 64 of a switch whose outgoing clock has stopped, the source is deselected without handshake. -/
  | switchForced (domain : Nat)
  /-- GATE_STOP (R350): A node with GATE_REQ set stops its clock after 4,096 idle core cycles. -/
  | gateStop (level : Nat) (index : Nat) (sub : Nat)
  /-- GATE_WAKE (R350): A gated node and its ancestors restart their clocks on demand within 32 core cycles. -/
  | gateWake (level : Nat) (index : Nat) (sub : Nat)
  /-- PLLS_LOCKED (R355): Start-up step 3 ends when every PLL has locked and the Spindle and trace domains switch to their PLLs. -/
  | pllsLocked
  /-- PCIE_CONFIGURATION_READY (R355): Start-up step 4 ends when the PCIe endpoint is configuration-ready and the mailbox answers BUSY. -/
  | pcieConfigurationReady
  /-- CHECKER_SELFTEST_DONE (R255): The checker self-test ends and its failures hold HOME_READY, restrict a port codec or halt Spindle. -/
  | checkerSelftestDone (failed : Nat)
  /-- BOOT_SLOT_VERIFY (R387): The boot ROM verifies the preferred slot, falls back to the other slot, or enters recovery. -/
  | bootSlotVerify
  /-- LEDGER_MOUNT (R370): Spindle reads the ledger root, replays records from the checkpoint and finds the log head. -/
  | ledgerMount
  /-- HBM_TRAINED (R355): Start-up step 8 ends when the four stacks have trained, or reports the stacks that failed. -/
  | hbmTrained (fails : BitVec 4)
  /-- METADATA_INITIALISED (R356): Start-up step 9 ends when every metadata structure is initialised and retired frames and bank relocations are applied. -/
  | metadataInitialised
  /-- FIRMWARE_READY (R388): Firmware reports ready, raises SVN_MIN if needed and the mailbox begins serving commands. -/
  | firmwareReady
  /-- MEMORY_PORT_SETTLE (R355): The memory-port settle ends when every memory port is ACTIVE or 100 ms after the first commit. -/
  | memoryPortSettle (expired : Bool)
  /-- POOL_REBUILD (R181): The page map, free lists and ALLOC are rebuilt from the extent records of every contributing port. -/
  | poolRebuild (failed : List Nat)
  /-- HOME_READY_RELEASE (R357): The device releases HOME_READY once all its conditions hold and writes the reset marker RUNNING. -/
  | homeReadyRelease
  /-- JUNCTION_TEMP_READ (R422): Every 1 ms the device reads its 24 junction sensors. -/
  | junctionTempRead (temps : List Int)
  /-- THERMAL_RELEASE (R422): After every reading has stayed below 90 °C for 1 s the THERMAL reset is released and THERM_N deasserted. -/
  | thermalRelease
  /-- JTAG_EXTEST (R408): TAP instruction EXTEST drives pins from the boundary register while RESET_N is asserted. -/
  | jtagExtest (pins : List Bool)
  /-- JTAG_SAMPLE_PRELOAD (R408): TAP instruction SAMPLE/PRELOAD captures and preloads the boundary register. -/
  | jtagSamplePreload (pins : List Bool) (preload : List Bool)
  /-- JTAG_IDCODE (R408): TAP instruction IDCODE selects the 32-bit IDCODE register. -/
  | jtagIdcode
  /-- JTAG_BYPASS (R408): TAP instruction BYPASS, or any unassigned opcode, selects the bypass register. -/
  | jtagBypass (opcode : BitVec 4)
  /-- FORM (R208): A FORM frame assigns the next device index, accumulates residence and returns to the primary. -/
  | form (frame : RingFrame)
  /-- FORM_TIMEOUT (R208): When FORM has not returned within 100 ms the primary repeats formation. -/
  | formTimeout
  /-- FORM_DONE (R208): A FORM_DONE frame makes a device formed and releases its ring hold on HOME_READY. -/
  | formDone (frame : RingFrame)
  /-- TIME_SYNC (R211): A TIME_SYNC frame lets a device step, slew or slow its domain time toward the primary's. -/
  | timeSync (frame : RingFrame)
  /-- TIME_SYNC_SEND (R211): Every 1 ms the primary broadcasts TIME_SYNC. -/
  | timeSyncSend
  /-- STATE_FRAME (R217): A STATE frame updates the primary's view of a secondary's readiness, fault and containment. -/
  | stateFrame (frame : RingFrame)
  /-- STATE_SEND (R217): Every 1 ms each secondary sends a STATE frame to the primary. -/
  | stateSend
  /-- FAULT_FRAME (R217): A FAULT frame is recorded as REMOTE_FAULT and notified by the primary without changing service. -/
  | faultFrame (frame : RingFrame)
  /-- RING_DOWN (R210): With no TIME_SYNC for 5 ms the ring is marked DOWN and the primary begins re-formation. -/
  | ringDown
  /-- DOMAIN_TIME_INVALID (R211): Domain time becomes not valid after the ring has been down for 1 s. -/
  | domainTimeInvalid
  /-- RELAY_CMD (R215): RELAY_CMD fragments deliver a command that the target device runs as though received in its own mailbox. -/
  | relayCmd (frame : RingFrame)
  /-- RELAY_RSP (R215): RELAY_RSP fragments carry a relayed response that the primary writes into its response area. -/
  | relayRsp (frame : RingFrame)
  /-- RELAY_TIMEOUT (R215): A missing fragment or response completes the relay with DOMAIN_UNREACHABLE. -/
  | relayTimeout
  /-- RELAY_NOTE (R279): A RELAY_NOTE frame delivers a secondary's notification packet, which the primary numbers and queues. -/
  | relayNote (frame : RingFrame)
  /-- COMMIT_PREPARE (R293): A secondary assembles the commit image, validates it, loads shadows, enters PREPARED and votes. -/
  | commitPrepare (frame : RingFrame)
  /-- PREPARE_FRAGMENT_TIMEOUT (R293): A commit fragment missing for 10 ms makes the secondary vote no. -/
  | prepareFragmentTimeout
  /-- COMMIT_VOTE (R293): The primary collects a secondary's yes or no vote. -/
  | commitVote (frame : RingFrame)
  /-- VOTE_TIMEOUT (R293): With votes missing 100 ms after the last fragment the primary decides abort. -/
  | voteTimeout
  /-- COMMIT_DECIDE (R294): A secondary acts on a commit or abort decision and acknowledges it. -/
  | commitDecide (frame : RingFrame)
  /-- DECIDE_REPEAT (R294): Every 1 ms the primary repeats COMMIT_DECIDE until every secondary has acknowledged. -/
  | decideRepeat
  /-- COMMIT_ACK (R294): The primary records an acknowledgement and completes CFG_COMMIT when all have arrived. -/
  | commitAck (frame : RingFrame)
  /-- ACK_TIMEOUT (R294): Acknowledgements missing 1 s after APPLY_AT complete CFG_COMMIT with DOMAIN_UNREACHABLE. -/
  | ackTimeout
  /-- COMMIT_WINDOW (R289): At apply cycle T issue pauses for eight cycles while every unit makes its staged values live. -/
  | commitWindow
  /-- DRAIN_DONE (R290): The drain of a disruptive commit ends and the commit window is armed. -/
  | drainDone
  /-- DRAIN_TIMEOUT (R290): A drain not finished within 10 s releases its holds and completes CFG_COMMIT with TIMEOUT. -/
  | drainTimeout
  /-- FOLLOW_UP_DONE (R290): The background follow-up of a disruptive commit ends and a CFG_EVENT is sent. -/
  | followUpDone
  /-- TXN_IDLE_TIMEOUT (R291): A transaction idle for 30 s is rolled back and a CFG_EVENT with TIMEOUT is sent. -/
  | txnIdleTimeout
  /-- COMMAND_LIMIT_EXPIRY (R298): A command that reaches its limit completes with TIMEOUT, and its work stops or continues as its row gives. -/
  | commandLimitExpiry (via : Via)
  /-- DETECT_POLL (R29): Every 12 ms a port in DETECT repeats receiver detection and enters DISCOVERY on finding a partner. -/
  | detectPoll (port : Fin 24) (found : BitVec 4)
  /-- TS_DISC (R32): Training set received in DISCOVERY, counted toward lock and lane deskew. -/
  | tsDisc (port : Fin 24) (lane : Fin 4) (ts : List Byte)
  /-- TS_CFG (R31): Training set received in CONFIG that chooses lane numbers, width and generation. -/
  | tsCfg (port : Fin 24) (lane : Fin 4) (ts : List Byte)
  /-- TS_EQ (R33): Training set received in EQ that requests presets or coefficient steps and reports EQ_DONE. -/
  | tsEq (port : Fin 24) (lane : Fin 4) (ts : List Byte)
  /-- TS_READY (R45): Training set that leaves VERIFY or RETRAIN and carries ESEQ for replay. -/
  | tsReady (port : Fin 24) (lane : Fin 4) (ts : List Byte)
  /-- TS_RETRAIN (R29): Training set of type TS_RETRAIN received during retraining. -/
  | tsRetrain (port : Fin 24) (lane : Fin 4) (ts : List Byte)
  /-- DISCOVERY_TIMEOUT (R29): DISCOVERY not completed within 12 ms returns the port to DETECT. -/
  | discoveryTimeout (port : Fin 24)
  /-- CONFIG_TIMEOUT (R29): CONFIG not completed within 2 ms returns the port to DETECT. -/
  | configTimeout (port : Fin 24)
  /-- EQ_TIMEOUT (R31): EQ timeout clears the generation and retries at the next lower one, or returns to DETECT. -/
  | eqTimeout (port : Fin 24)
  /-- VERIFY_PASS (R29): 2^18 good flits in VERIFY move the port toward ACTIVE. -/
  | verifyPass (port : Fin 24)
  /-- VERIFY_TIMEOUT (R31): VERIFY not passed within 4 ms retries at the next lower generation or returns to DETECT. -/
  | verifyTimeout (port : Fin 24)
  /-- RETRAIN_TIMEOUT (R46): RETRAIN not completed within 1 ms takes the link down. -/
  | retrainTimeout (port : Fin 24)
  /-- LOSS_OF_SIGNAL (R46): All active lanes losing signal for more than 1 ms takes the link down. -/
  | lossOfSignal (port : Fin 24)
  /-- FLIT_RECEIVED (R38): A received flit is FEC-decoded, CRC-checked, sequence-checked and accepted, discarded or answered with NAK. -/
  | flitReceived (port : Fin 24) (bytes : List Byte)
  /-- ACK_NAK (R44): An ACK frees replay-buffer space and a NAK starts a replay from the named sequence number. -/
  | ackNak (port : Fin 24) (nak : Bool) (seq : Nat)
  /-- ACK_TIMER (R42): 500 ns after the first unacknowledged acceptance the receiver sends an acknowledgement. -/
  | ackTimer (port : Fin 24)
  /-- REPLAY_TIMEOUT (R44): With no acknowledgement progress for 3 µs the transmitter replays, and after four replays enters RETRAIN. -/
  | replayTimeout (port : Fin 24)
  /-- CREDIT_INIT (R48): The partner's CREDIT_INIT sets the credits held for each virtual channel. -/
  | creditInit (port : Fin 24) (slot : List Byte)
  /-- CREDIT_RETURN (R50): A CREDIT_RETURN adds returned credits to those the receiver of the slot holds. -/
  | creditReturn (port : Fin 24) (slot : List Byte)
  /-- CREDIT_RETURN_TIMER (R50): 64 ns after a credit became due the receiver places a CREDIT_RETURN. -/
  | creditReturnTimer (port : Fin 24)
  /-- CREDIT_AUDIT_DUE (R51): Every 4,096 flits a side sends a CREDIT_AUDIT for each virtual channel it sends on. -/
  | creditAuditDue (port : Fin 24)
  /-- CREDIT_AUDIT (R52): The home checks a partner's CREDIT_AUDIT and raises a port fault or a conservation fault on failure. -/
  | creditAudit (port : Fin 24) (slot : List Byte)
  /-- BIND_REQ (R54): An agent's BIND_REQ is checked against the binding table and answered with BIND_ACK. -/
  | bindReq (port : Fin 24) (slot : List Byte)
  /-- MOD_DESC (R164): A module's MOD_DESC is checked and the module taken into the pool or refused. -/
  | modDesc (port : Fin 24) (slot : List Byte)
  /-- MAC (R56): A MAC slot authenticates a run of eight encrypted flits, releasing them or taking the link down. -/
  | mac (port : Fin 24) (slot : List Byte)
  /-- CALIBRATION_DONE (R57): A full port calibration in MAINT ends and the port stays in MAINT. -/
  | calibrationDone (port : Fin 24)
  /-- MAINT_ENTRY (R57): A drained port enters MAINT, advances its epoch and starts any deferred calibration. -/
  | maintEntry (port : Fin 24)
  /-- EPOCH_ADVANCE (R225): A held epoch advance takes effect once no message with the next value remains inside the device. -/
  | epochAdvance (target : EpochOf)
  /-- RD_SHARED (R92): A read for a shared copy, answered with DATA_S or DATA_E. -/
  | rdShared (msg : MsgIn)
  /-- RD_OWN (R95): A read for ownership that invalidates other holders and is answered with DATA_E. -/
  | rdOwn (msg : MsgIn)
  /-- RD_ONCE (R95): A read of the current value answered with DATA_I without installing a copy. -/
  | rdOnce (msg : MsgIn)
  /-- UPGRADE (R95): A request from a sharer for E, answered with GRANT_E or served as RD_OWN. -/
  | upgrade (msg : MsgIn)
  /-- FLUSH_LINE (R100): Removes every agent copy and writes an O line to backing memory before WR_ACK. -/
  | flushLine (msg : MsgIn)
  /-- WR_FULL (R95): A full-line write that invalidates holders, allocates on first write and leaves the line O. -/
  | wrFull (msg : MsgIn)
  /-- WR_PART (R66): A masked write that merges enabled bytes over the current value. -/
  | wrPart (msg : MsgIn)
  /-- ATOMIC (R98): A home atomic executed by the slice's atomic unit after invalidating every holder. -/
  | atomic (msg : MsgIn)
  /-- WB_DIRTY (R104): A write-back of modified data, taken as snoop data, as an owner write-back or as stray. -/
  | wbDirty (msg : MsgIn)
  /-- EVICT_CLEAN (R105): An eviction notice that clears the agent's bit unless EVICT_GUARD or an outstanding snoop prevents it. -/
  | evictClean (msg : MsgIn)
  /-- RSP_I (R103): Snoop response without data leaving the agent in I. -/
  | rspI (msg : MsgIn)
  /-- RSP_S (R103): Snoop response without data leaving the agent in S. -/
  | rspS (msg : MsgIn)
  /-- RSP_WB_PENDING (R103): Snoop response saying a WB_DIRTY is in flight, answered once that write-back is taken. -/
  | rspWbPending (msg : MsgIn)
  /-- RSP_I_DATA (R91): Snoop response with dirty data, written as O, leaving the agent in I. -/
  | rspIData (msg : MsgIn)
  /-- RSP_S_DATA (R91): Snoop response with dirty data, written as O, leaving the agent in S. -/
  | rspSData (msg : MsgIn)
  /-- MEMRD (R196): CXL MemRd received on a peer CXL port and translated into RD_SHARED, RD_OWN or RD_ONCE. -/
  | cxlMemRd (port : Fin 24) (m : CxlMsg)
  /-- MEMRDDATA (R196): CXL MemRdData received on a peer CXL port and translated into RD_SHARED or RD_ONCE. -/
  | cxlMemRdData (port : Fin 24) (m : CxlMsg)
  /-- MEMSPECRD (R196): CXL MemSpecRd received on a peer CXL port and dropped. -/
  | cxlMemSpecRd (port : Fin 24) (m : CxlMsg)
  /-- MEMINV (R196): CXL MemInv or MemInvNT translated into UPGRADE or FLUSH_LINE, or taking a PEER_CXL2 link down. -/
  | cxlMemInv (port : Fin 24) (m : CxlMsg)
  /-- MEMCLNEVCT (R196): CXL MemClnEvct translated into EVICT_CLEAN and answered with Cmp when the slice takes it. -/
  | cxlMemClnEvct (port : Fin 24) (m : CxlMsg)
  /-- MEMWR (R196): CXL MemWr translated into WB_DIRTY or WR_FULL. -/
  | cxlMemWr (port : Fin 24) (m : CxlMsg)
  /-- MEMWRPTL (R196): CXL MemWrPtl translated into WR_PART. -/
  | cxlMemWrPtl (port : Fin 24) (m : CxlMsg)
  /-- BICONFLICT (R198): CXL BIConflict answered at the port with BIConflictAck behind queued NDR messages. -/
  | cxlBiConflict (port : Fin 24) (m : CxlMsg)
  /-- BIRSP (R199): CXL BIRspI or BIRspS held until prior write-backs are acknowledged and then forwarded as RSP_I or RSP_S. -/
  | cxlBiRsp (port : Fin 24) (m : CxlMsg)
  /-- CXL_MEM_ENABLE (R192): The host setting Mem_Enable makes the port check and accept its single agent binding. -/
  | cxlMemEnable (port : Fin 24) (enable : Bool)
  /-- HDM_DECODER_COMMIT (R195): A host commit of an HDM decoder maps HPA to DPA, builds the DPA layout or sets Commit Error. -/
  | hdmDecoderCommit (port : Fin 24) (decoder : Fin 4) (base : Nat) (size : Nat) (ways : Nat) (skip : Nat)
  /-- EXPANDER_ENUMERATION (R201): On a MEM_CXL port the device enumerates the expander, programs its decoder and offers it to the pool. -/
  | expanderEnumeration (port : Fin 24) (desc : ExpanderDesc)
  /-- EXPANDER_EVENT_POLL (R202): Every 1 s the device reads the expander's event records and records media errors. -/
  | expanderEventPoll (port : Fin 24) (records : List (Nat × Nat))
  /-- MEM_RD_DATA (R76): A module's read data, checked against its request, decoded and used for a demand, fill, copy or vote. -/
  | memRdData (port : Fin 24) (m : MemIn)
  /-- MEM_WR_ACK (R76): A module's write acknowledgement frees write-buffer targets and releases gated writes and flushes. -/
  | memWrAck (port : Fin 24) (tag : Nat) (ack : MemAck)
  /-- HBM_RETURN (R16): Line data or metadata returned from HBM starts a slice pass. -/
  | hbmReturn (slice : Fin 16) (id : Nat) (met : ReadMet)
  /-- STORE_SET_RETURN (R119): A directory-store set arrives, filling the pinned way or choosing a victim and opening the request. -/
  | storeSetReturn (slice : Fin 16) (set : Nat) (met : SetMet)
  /-- TAG_SET_RETURN (R144): A hank-tag-table set arrives and decides hit, miss and frame choice for the waiting request. -/
  | tagSetReturn (slice : Fin 16) (ls : Nat) (errs : List (Fin 8 × HbmErr))
  /-- ALLOCATE (R175): The allocator serves one REQ or COLLECT allocation request per cycle. -/
  | allocate
  /-- ALLOCATOR_ANSWER (R174): An allocation answer reaches the slice, opening or refusing the request or releasing held collected data. -/
  | allocatorAnswer (slice : Fin 16)
  /-- WAITING_REQUEST_OPEN (R87): Once a line's transaction closes, the head of its wait chain is taken in a rank-4 pass. -/
  | waitingRequestOpen (slice : Fin 16) (line : LinePass)
  /-- CMP_DEPARTURE (R89): The port reports a completion placed in a sequenced flit and the transaction closes, unpinning its way. -/
  | cmpDeparture (port : Fin 24)
  /-- SNOOP_TIMEOUT (R108): A snoop unanswered for 2 ms is answered by timeout, clearing the bit and poisoning an X line. -/
  | snoopTimeout (slice : Fin 16) (laddr : Nat) (agent : Nat)
  /-- RECOVERY_RECALL (R132): A recovery recall for one candidate line snoops every bound caching agent and leaves the line in I. -/
  | recoveryRecall (slice : Fin 16) (set : Nat) (laddr : Nat)
  /-- EVICTION_COPY_READ (R153): An active eviction slot issues one line copy read per core cycle into a reserved write-buffer entry. -/
  | evictionCopyRead (slice : Fin 16) (frame : Nat)
  /-- MEMORY_PORT_SCHEDULE (R186): A memory-port scheduler serves queued partition requests by deficit round-robin. -/
  | memoryPortSchedule (port : Fin 24)
  /-- MEM_PORT_TIMEOUT (R189): A memory port away beyond MEM_PORT_TIMEOUT makes its extents unreachable and frees its write-buffer entries. -/
  | memPortTimeout (port : Fin 24)
  /-- TRIPLE_REBUILD (R238): A lost TRIPLE copy is rebuilt on an eligible port from the surviving copies. -/
  | tripleRebuild (fx : Nat) (copy : Nat)
  /-- EXTENT_RETIREMENT_COPY (R251): A RETIRING extent's written lines are copied to a spare and the extent is remapped. -/
  | extentRetirementCopy (fx : Nat) (copy : Nat)
  /-- BANK_RELOCATION (R253): Metadata blocks of an excluded bank are copied line by line to spare blocks. -/
  | bankRelocation
  /-- DRAIN_WALKER_STEP (R156): In an idle cycle a walker reads a tag set and starts the copy of its O lines to the write buffer. -/
  | drainWalkerStep (slice : Fin 16)
  /-- DISABLE_SWEEP_STEP (R157): A background sweep in DISABLED writes present frames free. -/
  | disableSweepStep (slice : Fin 16)
  /-- DISOWN_SWEEP_STEP (R135): Every 32 core cycles a slice applies the disown mask to one store set and the unpinned cache ways. -/
  | disownSweepStep (pass : SlicePass)
  /-- PERSIST_SWEEP_STEP (R160): A slice sweeps its directory at the rate of R135 and injects a FLUSH_LINE for each X line in range. -/
  | persistSweepStep (slice : Fin 16)
  /-- DISCARD_STEP (R182): A slice runs the internal discard transaction for one line of the range. -/
  | discardStep
  /-- PAGE_COPY_STEP (R305): A DMA channel copies one line of a page through an internal read and write. -/
  | pageCopyStep
  /-- AUDIT (R257): Every 64 core cycles each auditor samples shadow and occupancy counts and checks its identities. -/
  | audit (who : Auditor)
  /-- CENSUS_STEP (R261): In an idle cycle a census walker recounts one set or extent, and at the walk's end checks the tally. -/
  | censusStep (who : Auditor)
  /-- TMR_SWEEP (R239): At least once per 1 ms every triplicated word is read and voted. -/
  | tmrSweep (upsets : List TmrUpset)
  /-- PATROL_READ (R246): A spread patrol read of an HBM or backing line is decoded and its errors handled. -/
  | patrolRead (target : PatrolTarget) (err : HbmErr)
  /-- SCRUB_STEP (R248): A SCRUB_RANGE read is decoded, counted, and at the end of the range a SCRUB_DONE record is written. -/
  | scrubStep (err : HbmErr) (retagged : Bool)
  /-- HBM_REFRESH (R161): Each HBM controller issues per-bank refresh at the interval the stack temperature requires. -/
  | hbmRefresh (stack : Fin 4) (bank : Nat)
  /-- RFMPB (R161): A bank whose RAA reaches RAAIMT × d receives a refresh-management command. -/
  | rfmpb (stack : Fin 4) (bank : Nat)
  /-- HBM_TEMP_READ (R162): Every 1 ms each controller reads its stack temperature and enters or leaves a thermal step. -/
  | hbmTempRead (stack : Fin 4) (temp : Int)
  /-- HBM_INTERFACE_CALIBRATION (R364): Every 100 ms each controller calibrates its interface inside refresh windows and may set retrain-pending. -/
  | hbmInterfaceCalibration (stack : Fin 4) (inMargin : Bool)
  /-- HBM_RETRAIN (R364): With the cache DISABLED a stack awaiting retraining is retrained while its accesses wait. -/
  | hbmRetrain (stack : Fin 4)
  /-- FETCH_TRAP (R240): An instruction fetch UE traps to the boot-ROM handler, which reloads the page or halts Spindle. -/
  | fetchTrap (page : Nat) (src : PageSources)
  /-- DATA_LOAD_UE (R241): A UE on a Spindle data load halts Spindle with MGMT_FAULT. -/
  | dataLoadUe (addr : Nat)
  /-- DMA_HALT (R242): A DMA read meeting a UE halts its channel, and firmware records it and restarts the channel. -/
  | dmaHalt (channel : Nat) (addr : Nat)
  /-- SPINDLE_RESUME (R425): When firmware runs again it continues NSEQ and sends the held and unnotified events. -/
  | spindleResume
  /-- NOTIFICATION_PUSH (R280): Spindle turns an intake event into a packet, reserving queue space or dropping it and counting NQ_LOST. -/
  | notificationPush
  /-- LEDGER_CHECKPOINT (R368): After 24,576 appended records the ledger writes a checkpoint and updates its root. -/
  | ledgerCheckpoint
  /-- STALAGMITE_FLUSH (R371): At most once per 60 s a changed stalagmite counter is written to the ledger. -/
  | stalagmiteFlush (id : Nat) (index : Nat)
  /-- CALENDAR_LEDGER_WRITE (R371): At most hourly the calendar is written to the ledger. -/
  | calendarLedgerWrite
  /-- POWER_ON_TIME_TICK (R373): Each second with PWRGOOD asserted POWER_ON_TIME advances. -/
  | powerOnTimeTick
  /-- AGING_SAMPLE (R376): Every 24 h of power-on time each aging monitor is sampled and its margin code computed. -/
  | agingSample (ratios : List Nat)
  /-- TRACE_STALL_TIMEOUT (R334): A record stalled for 1 µs for trace space is dropped and counted. -/
  | traceStallTimeout
  /-- OBS_SNAPSHOT (R338): Every OBS_SNAPSHOT_US the device captures 897 counter values and streams them in SNAPSHOT records. -/
  | obsSnapshot
  /-- BAD_OPCODE (R272): A doorbell rung with an OPCODE that is not assigned completes with BAD_OPCODE. -/
  | badOpcode (opcode : Nat) (area : CmdArea)
  /-- RING_IGNORED (R273): A doorbell rung while the primary mailbox is TAKEN or DONE is ignored and counted in MBX_STATUS.RING_IGNORED. -/
  | ringIgnored
  /-- HBM_WRITE_COMPLETE (R123): Completion of an HBM write, such as a directory-store entry write, lets the store access or tag-set table free its entry. -/
  | hbmWriteComplete (slice : Fin 16) (set : TableSet)
  /-- CXL_CREDIT_RETURN (R191): A CXL host returns link-layer credits for S2M NDR, DRS and BISnp messages to a PEER_CXL port. -/
  | cxlCreditReturn (port : Fin 24) (ndr : Nat) (drs : Nat) (biSnp : Nat)
  /-- CXL_RESET (R195): A CXL reset of a PEER_CXL port unlocks its committed HDM decoders and ends its DPA layout. -/
  | cxlReset (port : Fin 24)
  /-- IDE_KM (R395): The CXL host programs CXL IDE keys for a PEER_CXL3 port through IDE_KM in a session on that port's DOE. -/
  | ideKm (port : Fin 24) (session : Nat) (stream : Nat) (receive : Bool) (key : Nat)
  /-- OBS_WORD (R337): The OBS port sends one 64-bit word of the stream, popping a trace word or placing a SYNC or idle word, and inserts a SYNC after every 4,096 words. -/
  | obsWord
  /-- HOME_READY_LINE_CHANGE (R359): The wired HOME_READY line changes level because another device of the domain holds or releases it, and GSTATUS.HOME_READY_LINE follows. -/
  | homeReadyLineChange (level : Bool)
  /-- SMBUS_ARP (R406): The SMBus bus owner assigns the device an address by SMBus ARP using its UDID. -/
  | smbusArp (udid : Nat) (addr : Nat)
  deriving DecidableEq, Repr

end Sys2Proof
end

