-- ==== Sys2Proof/Decode.lean ====
section
/-! DEFINITION. Commands from table words. The opcode table gives its rows no bits: commands arrive from outside by many
paths (registers, link messages, pins), not as words of one encoding. -/

namespace Sys2Proof

/-- The command a word spells by the table's bits: none, since no row has bits. -/
def decodeTableWord (_nbits _w : Nat) : Option Instr := none

end Sys2Proof
end

