-- ==== Sys2Proof/Config.lean ====
section
/-! DEFINITION. What the spec leaves open, as constants with no body: free values, and the cryptographic functions the
spec names without defining. Nothing can be proved of their values, so every claim holds for all of them. -/

namespace Sys2Proof.Config

/-- A free number: applied to the counter `State.fresh`, a value nothing constrains (assumption 3). -/
opaque freeNat : Nat → Nat

/-- A free line: the bytes of data that carry no meaning or are left open (assumption 3). -/
opaque freeLine : Nat → Line

/-- What the count of ns since PWRGOOD reads as after both of its clocks have failed (R361; assumption 3). -/
opaque invalidTime : Nat → Nat

/-- SM3 (GB/T 32905): the digest of bytes, 32 of them (assumption 4). -/
opaque sm3 : List Byte → List Byte

/-- SM2 signature by the device identity key over bytes (R380, R382; assumption 4). -/
opaque sm2Sign : List Byte → List Byte

/-- The certificate chain of slot 0 after its header: root hash and certificates (R381; assumption 4), by the serial number of the fuses. -/
opaque certChain : List Byte → List Byte

/-- The digest of the boot ROM (R383; assumption 4). -/
opaque romDigest : List Byte

/-- The measurement digest of a firmware image, by version and security version (R383; assumption 4). -/
opaque fwDigest : Nat → Nat → List Byte

/-- A public key the device sends in an SPDM key exchange, by the exchange data received (assumption 4). -/
opaque exchangeKey : Nat → List Byte

/-- What decryption of the slots of a flit gives (R56; assumption 4): algorithm, key, IV of the run, place of the flit in it, slots. -/
opaque decrypt : Nat → Nat → Nat → Nat → List (List Byte) → List (List Byte)

/-- What encryption of the slots of a flit gives (R56; assumption 4). -/
opaque encrypt : Nat → Nat → Nat → Nat → List (List Byte) → List (List Byte)

/-- The authentication tag of a run (R56; assumption 4): algorithm, key, IV of the run, its flits, its headers and slots as sent; 16 bytes. -/
opaque macTag : Nat → Nat → Nat → Nat → List (List Byte) → List Byte

/-- Whether the SM3 digest of the public key of a firmware image is the fused key hash (R386 check 2; assumption 4). -/
opaque imageKeyOk : List Byte → Bool

/-- Whether the digests of a firmware image match its bytes (R386 check 4; assumption 4). -/
opaque imageDigestOk : List Byte → Bool

/-- Whether the signature of a firmware image verifies (R386 check 5; assumption 4). -/
opaque imageSigned : List Byte → Bool

/-- The UUID of the device, of its serial number (R407; assumption 4). -/
opaque uuid : List Byte → List Byte

end Sys2Proof.Config
end

