-- ==== Sys2Proof/Machine/Bits.lean ====
section
/-! DEFINITION. Bytes, bit fields, the byte-addressed memories in their canonical form, the CRCs (R30, R36, R206)
and the Reed-Solomon codes (R37, R227, R231) the part computes. -/

namespace Sys2Proof

/-- The canonical form of a memory: addresses strictly rising, no listed byte equal to what an unlisted one reads as. -/
def Memory.wf : Memory → Bool
  | [] => true
  | [(_, b)] => b != 0
  | (a, b) :: (a', b') :: m => b != 0 && decide (a < a') && Memory.wf ((a', b') :: m)

/-- One byte read. -/
def Memory.read (m : Memory) (a : Nat) : Byte :=
  match m with
  | [] => 0
  | (a', b) :: m => if a = a' then b else Memory.read m a

/-- One byte written; writing the byte an unlisted address reads as removes the cell. -/
def Memory.write (m : Memory) (a : Nat) (b : Byte) : Memory :=
  match m with
  | [] => if b = 0 then [] else [(a, b)]
  | (a', b') :: m =>
    if a < a' then (if b = 0 then (a', b') :: m else (a, b) :: (a', b') :: m)
    else if a = a' then (if b = 0 then m else (a, b) :: m)
    else (a', b') :: Memory.write m a b

/-- Byte i of a line. -/
def Line.byte (l : Line) (i : Nat) : Byte := l.extractLsb' (8 * i) 8

/-- The bytes of a line, byte 0 first. -/
def Line.bytes (l : Line) : List Byte := (List.range 64).map l.byte

/-- The line whose byte i is the i-th of the list (missing bytes are 0). -/
def Line.ofBytes (bs : List Byte) : Line :=
  (bs.take 64).foldr (fun b acc => (acc <<< 8) ||| b.setWidth 512) 0

/-- Successive bytes written from an address. -/
def Memory.writeBytes (m : Memory) (a : Nat) : List Byte → Memory
  | [] => m
  | b :: bs => Memory.writeBytes (m.write a b) (a + 1) bs

/-- A line read at a byte address. -/
def Memory.readLine (m : Memory) (a : Nat) : Line := Line.ofBytes ((List.range 64).map fun i => m.read (a + i))

/-- A line written at a byte address. -/
def Memory.writeLine (m : Memory) (a : Nat) (l : Line) : Memory := m.writeBytes a l.bytes

/-! ## Numbers and bytes -/

/-- Bits hi..lo of a number. -/
def bits (x hi lo : Nat) : Nat := (x >>> lo) % 2 ^ (hi + 1 - lo)

/-- Bit i of a number. -/
def bitOf (x i : Nat) : Bool := (x >>> i) % 2 == 1

/-- 1 for true. -/
def b2n (b : Bool) : Nat := if b then 1 else 0

/-- n bytes of a number, little-endian (R6). -/
def leBytes (n x : Nat) : List Byte :=
  match n with
  | 0 => []
  | n + 1 => BitVec.ofNat 8 x :: leBytes n (x >>> 8)

/-- The number little-endian bytes make (R6). -/
def ofLe : List Byte → Nat
  | [] => 0
  | b :: bs => b.toNat + 256 * ofLe bs

/-- n bytes at an offset of a list as a number; bytes beyond its end are 0. -/
def leAt (bs : List Byte) (off n : Nat) : Nat := ofLe ((bs.drop off).take n)

/-- A list of exactly n bytes: cut, or filled with zeros. -/
def padTo (n : Nat) (bs : List Byte) : List Byte := bs.take n ++ List.replicate (n - bs.length) 0

/-- Number of bits set in a mask. -/
def popcount (m : Mask) : Nat := (List.range 64).countP fun i => m.getLsbD i

/-- The mask with bit n alone (none when n is not below 64). -/
def oneHot (n : Nat) : Mask := if n < 64 then (1 : Mask) <<< n else 0

/-- The numbers of the bits set, ascending. -/
def maskBits (m : Mask) : List Nat := (List.range 64).filter fun i => m.getLsbD i

/-- 64-bit XOR of two bytes as numbers. -/
def xorNat (a b : Nat) : Nat := a ^^^ b

/-! ## CRCs -/

/-- n shifts of a reflected CRC register. -/
def crcShift (poly : Nat) : Nat → Nat → Nat
  | 0, r => r
  | n + 1, r => crcShift poly n (if r % 2 = 1 then (r >>> 1) ^^^ poly else r >>> 1)

/-- A reflected CRC over bytes, from a register value. -/
def crcReflected (poly : Nat) (bs : List Byte) (r : Nat) : Nat :=
  bs.foldl (fun r b => crcShift poly 8 (r ^^^ b.toNat)) r

/-- R36: CRC-64, ECMA-182 polynomial, reflected, initial value and final XOR of all ones. -/
def crc64 (bs : List Byte) : Nat :=
  crcReflected 0xC96C5795D7870F42 bs 0xFFFFFFFFFFFFFFFF ^^^ 0xFFFFFFFFFFFFFFFF

/-- R206: the IEEE 802.3 CRC-32. -/
def crc32 (bs : List Byte) : Nat := crcReflected 0xEDB88320 bs 0xFFFFFFFF ^^^ 0xFFFFFFFF

/-- n shifts of the CRC-16 register of Table LNK-4. -/
def crc16Shift : Nat → Nat → Nat
  | 0, r => r
  | n + 1, r => crc16Shift n (if bitOf r 15 then ((r <<< 1) ^^^ 0x1021) % 65536 else (r <<< 1) % 65536)

/-- Table LNK-4: CRC-16, polynomial 0x1021, initial value 0xFFFF, no reflection, no final XOR. -/
def crc16 (bs : List Byte) : Nat :=
  bs.foldl (fun r b => crc16Shift 8 (r ^^^ (b.toNat <<< 8))) 0xFFFF

/-! ## GF(2^8) with x^8 + x^4 + x^3 + x^2 + 1 and α = 2 (R37) -/

/-- n steps of a product: a times the n low bits of b, added to acc. -/
def gfMulSteps : Nat → Nat → Nat → Nat → Nat
  | 0, _, _, acc => acc
  | n + 1, a, b, acc =>
    gfMulSteps n (if bitOf a 7 then ((a <<< 1) ^^^ 0x11D) % 256 else a <<< 1) (b >>> 1)
      (if b % 2 = 1 then acc ^^^ a else acc)

/-- Product in the field. -/
def gfMul (a b : Nat) : Nat := if a = 0 ∨ b = 0 then 0 else gfMulSteps 8 a b 0

/-- Power in the field. -/
def gfPow (a : Nat) : Nat → Nat
  | 0 => 1
  | n + 1 => gfMul a (gfPow a n)

/-- Inverse in the field, a^254; 0 of 0. -/
def gfInv (a : Nat) : Nat :=
  let a2 := gfMul a a; let a4 := gfMul a2 a2; let a8 := gfMul a4 a4; let a16 := gfMul a8 a8
  let a32 := gfMul a16 a16; let a64 := gfMul a32 a32; let a128 := gfMul a64 a64
  gfMul a128 (gfMul a64 (gfMul a32 (gfMul a16 (gfMul a8 (gfMul a4 a2)))))

/-- α^n. -/
def alpha (n : Nat) : Nat := gfPow 2 (n % 255)

/-- Horner: the polynomial with coefficients highest first, at x. -/
def gfHorner (x : Nat) (cs : List Nat) : Nat := cs.foldl (fun acc c => gfMul acc x ^^^ c) 0

/-- The polynomial with coefficients lowest first, at x. -/
def gfEval (x : Nat) : List Nat → Nat
  | [] => 0
  | c :: cs => c ^^^ gfMul x (gfEval x cs)

/-- Coefficientwise sum, lowest first. -/
def gfAdd : List Nat → List Nat → List Nat
  | [], ys => ys
  | xs, [] => xs
  | x :: xs, y :: ys => (x ^^^ y) :: gfAdd xs ys

/-- The syndromes S_0 to S_(p-1) of a received word, highest coefficient first. -/
def rsSyndromes (p : Nat) (word : List Nat) : List Nat := (List.range p).map fun j => gfHorner (alpha j) word

/-- What Berlekamp-Massey carries. -/
structure BmState where
  /-- locator, lowest first -/
  c : List Nat := [1]
  /-- previous locator -/
  b : List Nat := [1]
  /-- its degree -/
  l : Nat := 0
  /-- steps since b was taken -/
  m : Nat := 1
  /-- discrepancy of b -/
  bd : Nat := 1
  deriving DecidableEq, Repr

/-- The discrepancy at step n. -/
def bmDiscrepancy (syn : List Nat) (st : BmState) (n : Nat) : Nat :=
  (List.range (st.l + 1)).foldl (fun acc i => acc ^^^ gfMul (st.c.getD i 0) (if i ≤ n then syn.getD (n - i) 0 else 0)) 0

/-- One step of Berlekamp-Massey. -/
def bmStep (syn : List Nat) (st : BmState) (n : Nat) : BmState :=
  let d := bmDiscrepancy syn st n
  if d = 0 then { st with m := st.m + 1 }
  else
    let k := gfMul d (gfInv st.bd)
    let c' := gfAdd st.c (List.replicate st.m 0 ++ st.b.map (gfMul k))
    if 2 * st.l ≤ n then { c := c', b := st.c, l := n + 1 - st.l, m := 1, bd := d }
    else { st with c := c', m := st.m + 1 }

/-- What an RS decoder finds. -/
inductive RsResult where
  /-- zero syndrome -/
  | clean
  /-- located errors: position from the highest coefficient, and the value to add -/
  | corrected (errs : List (Nat × Nat))
  /-- errors beyond what the code corrects -/
  | bad
  deriving DecidableEq, Repr

/-- Decoding of a word of n symbols, highest coefficient first, with p check symbols, correcting at most t errors.
Roots of the generator are α^0 to α^(p-1). -/
def rsDecode (p t : Nat) (word : List Nat) : RsResult :=
  let syn := rsSyndromes p word
  if syn.all (· == 0) then .clean
  else
    let st := (List.range p).foldl (bmStep syn) {}
    let n := word.length
    let roots := (List.range n).filter fun e => gfEval (alpha (255 - e % 255)) st.c == 0
    if st.l > t ∨ roots.length ≠ st.l then .bad
    else
      let omega := (List.range p).map fun i =>
        (List.range (i + 1)).foldl (fun acc j => acc ^^^ gfMul (syn.getD j 0) (st.c.getD (i - j) 0)) 0
      let deriv := (List.range st.c.length).map fun i => if i % 2 = 0 then st.c.getD (i + 1) 0 else 0
      .corrected (roots.map fun e =>
        let xi := alpha (255 - e % 255)
        (n - 1 - e, gfMul (alpha e) (gfMul (gfEval xi omega) (gfInv (gfEval xi deriv)))))

/-- A list with the value added at a position. -/
def xorAt (w : List Nat) (i v : Nat) : List Nat := w.modify i (· ^^^ v)

/-- The generator polynomial ∏ (x + α^j), j < p, highest coefficient first, leading 1 omitted. -/
def rsGenerator : Nat → List Nat
  | 0 => []
  | p + 1 =>
    let g := 1 :: rsGenerator p
    (gfAdd ((g ++ [0]).reverse) (((g.map (gfMul (alpha p)))).reverse)).reverse.drop 1

/-- The p check symbols of a message, highest coefficient first: the remainder of message · x^p. -/
def rsParity (p : Nat) (msg : List Nat) : List Nat :=
  let g := rsGenerator p
  msg.foldl (fun (r : List Nat) m =>
    let f := m ^^^ r.headD 0
    List.zipWith (fun a b => a ^^^ gfMul f b) (r.drop 1 ++ [0]) g) (List.replicate p 0)

end Sys2Proof
end

