-- ==== Sys2Proof/Machine/State.lean ====
section
/-! DEFINITION. The state of the PNH6424, as plain data: everything the spec gives the part, the queue of waiting
commands, and the state after reset (RESET_N deasserted after a PIN reset, before start-up step 3). Each field names
the rule of the spec that gives it. A field whose reset value the spec does not give holds a DESIGN CHOICE
(assumption 1). -/

namespace Sys2Proof.Machine

/-- Why a step faults. Raised by no meaning: every command of the block has an effect, or is one that cannot occur and
changes nothing (assumption 2). -/
inductive Fault where
  /-- An access outside the device HBM address space (R17): raised by nobody, since HBM addresses are computed. Safe. -/
  | hbmAddress
  deriving DecidableEq, Repr

/-- Why a step is refused. -/
inductive Refusal where
  /-- The command with this mnemonic has no meaning yet; raised by an arm of exec only. Safe. -/
  | notModelled (mnemonic : String)
  deriving DecidableEq, Repr

/-- R20, Table DOM-5: what a port is; the order is the encoding. -/
inductive Personality where
  /-- 0b000 -/
  | off
  /-- 0b001 -/
  | peerOlk
  /-- 0b010 -/
  | peerCxl2
  /-- 0b011 -/
  | peerCxl3
  /-- 0b100 -/
  | memOlk
  /-- 0b101 -/
  | memCxl
  deriving DecidableEq, Repr, Inhabited

/-- R29 Table LNK-3; the order is the LINK_STATE encoding of PORT_STATUS. -/
inductive LinkState where
  /-- DISABLED -/
  | disabled
  /-- DETECT -/
  | detect
  /-- DISCOVERY -/
  | discovery
  /-- CONFIG -/
  | config
  /-- EQ -/
  | eq
  /-- VERIFY -/
  | verify
  /-- ACTIVE -/
  | active
  /-- RETRAIN -/
  | retrain
  /-- MAINT -/
  | maint
  deriving DecidableEq, Repr, Inhabited

/-- Table DOM-5 STATUS; the order is the encoding. -/
inductive BindStatus where
  /-- 0b00 -/
  | idle
  /-- 0b01: active on the current link-up of PORT -/
  | active
  /-- 0b10: withdrawn for this link-up -/
  | withdrawn
  /-- 0b11 -/
  | disowning
  deriving DecidableEq, Repr, Inhabited

/-- R82: directory state of a line. -/
inductive DirState where
  /-- no agent copy -/
  | I
  /-- one or more sharers -/
  | S
  /-- one agent may hold E or M -/
  | X
  deriving DecidableEq, Repr, Inhabited

/-- R83: state of a line in the memory-side cache. -/
inductive MscState where
  /-- not held -/
  | absent
  /-- equal to backing memory -/
  | C
  /-- newer than backing memory -/
  | O
  deriving DecidableEq, Repr, Inhabited

/-- Table MSC-3 FSTATE; the order is the encoding. -/
inductive FrameState where
  /-- 0b00 -/
  | free
  /-- 0b01 -/
  | present
  /-- 0b10 -/
  | evicting
  /-- 0b11 -/
  | retired
  deriving DecidableEq, Repr, Inhabited

/-- Table MSC-6; the order is CACHE_STATE of GET_STATUS. -/
inductive CacheState where
  /-- R155 -/
  | enabled
  /-- R156 -/
  | draining
  /-- R157 -/
  | disabled
  deriving DecidableEq, Repr, Inhabited

/-- Table MBX-3. -/
inductive MbxState where
  /-- IDLE -/
  | idle
  /-- TAKEN -/
  | taken
  /-- DONE -/
  | done
  deriving DecidableEq, Repr, Inhabited

/-- MGMT_STATE.STATE, Table HOST-5; the order is the encoding. -/
inductive MgmtState where
  /-- 0 -/
  | notReady
  /-- 1 -/
  | running
  /-- 2 -/
  | halted
  /-- 3 -/
  | liveActivation
  /-- 4 -/
  | recovery
  /-- 5 -/
  | restarting
  deriving DecidableEq, Repr, Inhabited

/-- Table CLK-5-A; the order is that of the ledger RESET record. -/
inductive ResetType where
  /-- POWER_ON -/
  | powerOn
  /-- PIN -/
  | pin
  /-- CLOCK_LOSS -/
  | clockLoss
  /-- THERMAL -/
  | thermal
  deriving DecidableEq, Repr, Inhabited

/-- Table POOL-2 STATE of a fabric extent; the order is the encoding. -/
inductive ExtState where
  /-- 0b00 -/
  | unallocated
  /-- 0b01 -/
  | allocated
  /-- 0b10 (R179) -/
  | lost
  deriving DecidableEq, Repr, Inhabited

/-- R151: kind of a write-buffer entry. -/
inductive WbKind where
  /-- the line's newest value -/
  | data
  /-- a zero write -/
  | zero
  /-- a repaired value for one target -/
  | rewrite
  /-- a line on its way to a spare extent -/
  | copy
  deriving DecidableEq, Repr, Inhabited

/-- R86: the pool an entry is drawn from. -/
inductive TxnPool where
  /-- 928 entries -/
  | general
  /-- 64 entries -/
  | writeBack
  /-- 32 entries -/
  | recall
  deriving DecidableEq, Repr, Inhabited

/-- R87, R427, R128: where a transaction entry stands. -/
inductive TxnStatus where
  /-- on its line's wait chain -/
  | waiting
  /-- in the set-blocked queue (R128) -/
  | setBlocked
  /-- accepted, opening pass still to come (R427) -/
  | pending
  /-- open (R91) -/
  | opened
  /-- its closing pass has run and its CMP messages have not all departed (R89) -/
  | closing
  deriving DecidableEq, Repr, Inhabited

/-- R175: an allocator answer. -/
inductive AllocCode where
  /-- OK -/
  | ok
  /-- QUOTA -/
  | quota
  /-- POOL_EMPTY -/
  | poolEmpty
  deriving DecidableEq, Repr, Inhabited

/-- R288 to R290: how far a CFG_COMMIT has gone. -/
inductive CommitPhase where
  /-- no CFG_COMMIT taken -/
  | open
  /-- R290 phase 1 -/
  | draining
  /-- apply cycle armed (R289) -/
  | armed
  /-- domain commit on the ring (R293, R294) -/
  | ring
  deriving DecidableEq, Repr, Inhabited

/-- R346: the two sources of a switchable domain. -/
inductive AonSource where
  /-- fallback oscillator, or REFCLK bypass for Spindle and trace -/
  | fallback
  /-- REFCLK/4, or the PLL for Spindle and trace -/
  | reference
  deriving DecidableEq, Repr, Inhabited

/-- Table OBS-4: the 16 slot subclasses; the order is the encoding. -/
inductive SubClass where
  /-- 0 RETIRED -/
  | reqPass
  /-- 1 RETIRED -/
  | returnPass
  /-- 2 RETIRED -/
  | wbRspPass
  /-- 3 RETIRED -/
  | internalPass
  /-- 4 WASTED -/
  | conflictReplay
  /-- 5 WASTED -/
  | pinnedVictim
  /-- 6 WASTED -/
  | checkRetry
  /-- 7 FRONT_STARVED -/
  | noSource
  /-- 8 FRONT_STARVED -/
  | windowIdle
  /-- 9 BACK_STARVED -/
  | entries
  /-- 10 BACK_STARVED -/
  | hbm
  /-- 11 BACK_STARVED -/
  | backing
  /-- 12 BACK_STARVED -/
  | egress
  /-- 13 BACK_STARVED -/
  | directory
  /-- 14 BACK_STARVED -/
  | windowReady
  /-- 15 BACK_STARVED -/
  | other
  deriving DecidableEq, Repr, Inhabited

/-- equalisation state of one lane (R33). -/
structure LaneEq where
  /-- R33: preset of the home transmitter in force, 0-9 (starting preset by generation) -/
  preset : Nat := 1
  /-- R33: tap c-2 in 1/64 -/
  cm2 : Int := 0
  /-- R33: tap c-1 in 1/64 -/
  cm1 : Int := 0
  /-- R33: tap c+1 in 1/64 -/
  cp1 : Int := -8
  /-- R33: EQ_STATUS[1:0] of the last answer: 0 applied, 1 at limit, 2 refused -/
  status : Nat := 0
  /-- R33: presets requested by the partner, at most 8 -/
  presetReqs : Nat := 0
  /-- R33: coefficient requests by the partner, at most 128 -/
  stepReqs : Nat := 0
  /-- R33: presets the home has requested of the partner on this lane, at most 8 -/
  askedPresets : Nat := 0
  /-- R33: coefficient steps the home has requested on this lane, at most 128 -/
  askedSteps : Nat := 0
  /-- R30: EQ_PRESET the home sends on this lane; 0xFF none -/
  askPreset : Nat := 0xFF
  /-- R30: EQ_CMD the home sends on this lane -/
  askCmd : Nat := 0
  /-- R33: EQ_STATUS[1:0] of the partner's last answer on this lane -/
  answer : Nat := 0
  /-- R33: the home asks no more on this lane, and sends EQ_DONE -/
  ownDone : Bool := false
  /-- R32: the lane has reached marker lock in this DISCOVERY -/
  locked : Bool := false
  /-- R30: TS_TYPE and the common fields of the training set last taken on this lane in this state -/
  seen : List Byte := []
  /-- R29: EQ_DONE received from the partner on this lane -/
  done : Bool := false
  /-- R29: consecutive good training sets of the current state on this lane -/
  count : Nat := 0
  deriving DecidableEq, Repr, Inhabited

/-- training state machine of a port (R29 to R33, R57). -/
structure PortLink where
  /-- R29: link state -/
  state : LinkState := .disabled
  /-- R31: GEN_CAP the home still advertises since DETECT -/
  genCap : BitVec 3 := 7
  /-- R31: GEN_CAP of the partner -/
  partnerCap : BitVec 3 := 0
  /-- R31: generation chosen, 1-3; 0 none -/
  gen : Nat := 0
  /-- R32: LANE_MASK, the active lanes -/
  laneMask : BitVec 4 := 0
  /-- R33: per-lane training and equalisation -/
  lanes : Vector LaneEq 4 := Vector.replicate 4 {}
  /-- R30: SIDE of the partner's training sets -/
  partnerSide : BitVec 8 := 0
  /-- R30: bytes 6-9 and 13-15 of the training set last taken in this state -/
  partnerSet : List Byte := []
  /-- R30: lanes heard in the training set being received -/
  row : BitVec 4 := 0
  /-- R29: the VERIFY count has been reached -/
  passed : Bool := false
  /-- R29: consecutive flits received in VERIFY with no CRC failure -/
  verifyRun : Nat := 0
  /-- R29: symbols the FEC has corrected in that run -/
  verifyFixed : Nat := 0
  /-- R57: a full calibration request is kept -/
  calPending : Bool := false
  /-- R57: a full calibration runs (in MAINT) -/
  calRunning : Bool := false
  /-- R57: the port drains for MAINT (R302) -/
  draining : Bool := false
  /-- R48: ACTIVE was entered from VERIFY and no CREDIT_INIT has been sent since -/
  fromVerify : Bool := false
  /-- R255: the memory-port codec failed self-test: transparent modules are refused -/
  codecRestricted : Bool := false
  /-- R394: waits in DETECT until phase 0 is usable again or KEY_ERASE -/
  waitKeys : Bool := false
  deriving DecidableEq, Repr, Inhabited

/-- a sequenced flit held for replay (R35, R41). -/
structure TxFlit where
  /-- R35: SEQ -/
  seq : Nat := 0
  /-- R35: CONT -/
  cont : Nat := 0
  /-- R35: KEY_PHASE -/
  phase : Bool := false
  /-- R34: its slots -/
  slots : List (List Byte) := []
  deriving DecidableEq, Repr, Inhabited

/-- one count per virtual channel (R47). -/
structure VcCount where
  /-- R47: REQ -/
  req : Nat := 0
  /-- R47: WB -/
  wb : Nat := 0
  /-- R47: SNP -/
  snp : Nat := 0
  /-- R47: RSP -/
  rsp : Nat := 0
  /-- R47: CMP -/
  cmp : Nat := 0
  /-- R47: MEM -/
  mem : Nat := 0
  deriving DecidableEq, Repr, Inhabited

/-- receive side of a port (R38 to R53). -/
structure PortRx where
  /-- R42: next expected sequence number, modulo 1,024 -/
  eseq : Nat := 0
  /-- R43: a NAK has been sent and the flit numbered ESEQ is awaited -/
  nakWait : Bool := false
  /-- R43: core cycle of the last NAK for this ESEQ -/
  nakAt : Option Nat := none
  /-- R42: sequenced flits accepted since the last acknowledgement -/
  unacked : Nat := 0
  /-- R38: data slots still owed by the last message accepted -/
  owed : Nat := 0
  /-- R39: header and data slots of the message being received -/
  assembling : List (List Byte) := []
  /-- R105: receive position given to the next message -/
  position : Nat := 0
  /-- R48: the partner's CREDIT_INIT has been received -/
  initSeen : Bool := false
  /-- R54: BIND_REQ or MOD_DESC has been received in this link-up -/
  bindSeen : Bool := false
  /-- R63: domain-time stamping in use on this port -/
  tsEnabled : Bool := false
  /-- R54: TAG_LIMIT declared in BIND_REQ -/
  tagLimit : Nat := 4096
  /-- R54: MAKER -/
  maker : Nat := 0
  /-- R54: PRODUCT -/
  product : Nat := 0
  /-- R48: receive pools in force -/
  pools : VcCount := {}
  /-- R52: credited slots accepted since credit initialisation -/
  rcvd : VcCount := {}
  /-- R258: credits placed in CREDIT_RETURN slots -/
  retSent : VcCount := {}
  /-- R50: credits freed and not yet placed in a CREDIT_RETURN -/
  due : VcCount := {}
  /-- R257: auditor shadow of rcvd -/
  shRcvd : VcCount := {}
  /-- R257: auditor shadow of retSent -/
  shRetSent : VcCount := {}
  /-- R56: slots of the current run, not delivered until the MAC checks -/
  runHeld : List (List Byte) := []
  /-- R56: the same slots as received, over which the MAC is checked -/
  runCipher : List (List Byte) := []
  /-- R56: flits in the current run -/
  runFlits : Nat := 0
  /-- R56: key phase of the current run -/
  phase : Bool := false
  /-- R394: RUN count of the receive direction -/
  run : Nat := 0
  /-- R27: scrambler of each logical lane, receive side -/
  scr : Vector (BitVec 31) 4 := Vector.replicate 4 0
  deriving DecidableEq, Repr, Inhabited

/-- the two epochs a message records (R221). -/
structure Epochs where
  /-- R221: PORT_EPOCH recorded -/
  port : Nat := 0
  /-- R221: agent EPOCH recorded -/
  agent : Nat := 0
  deriving DecidableEq, Repr, Inhabited

/-- a message a slice or port hands to the egress of a port. -/
structure OutMsg where
  /-- R58: message -/
  op : Op := .cmpErr
  /-- R60: agent ID -/
  dest : Nat := 0
  /-- R60: TAG -/
  tag : Nat := 0
  /-- R60: LADDR -/
  laddr : Nat := 0
  /-- R60: ATTR -/
  attr : BitVec 8 := 0
  /-- R60: AOP -/
  aop : Nat := 0
  /-- R60: SIZE -/
  size : Nat := 0
  /-- R64: payload -/
  data : Line := 0
  /-- R65: payload poisoned -/
  poison : Bool := false
  /-- R64: bits [31:0] of domain time in ns at which the home took the data; 0 without a valid domain time -/
  taken : Nat := 0
  /-- R221: epochs recorded at creation -/
  epochs : Epochs := {}
  /-- R89: transaction that waits for the departure -/
  owner : Option (Fin 16 × Nat) := none
  /-- R330: opcode of the request answered -/
  reqOp : Nat := 0
  /-- R330: time of arrival of the request answered, in core cycles -/
  arrived : Nat := 0
  /-- R330: TS of the request answered when TS_PRESENT -/
  reqTs : Option Nat := none
  /-- R224: a sump answer -/
  sumped : Bool := false
  /-- R224: the message answered holds its receive-buffer slots until this is placed -/
  credit : Bool := false
  deriving DecidableEq, Repr, Inhabited

/-- transmit side of a port (R41 to R51). -/
structure PortTx where
  /-- R41: SEQ of the next sequenced flit -/
  nextSeq : Nat := 0
  /-- R41: unacknowledged sequenced flits, oldest first, at most 512 -/
  replay : List TxFlit := []
  /-- R44: replays from the oldest number without progress -/
  replays : Nat := 0
  /-- R48: pools the partner advertised -/
  pools : VcCount := {}
  /-- R51: credits held (AVAIL) -/
  avail : VcCount := {}
  /-- R51: SENT, modulo 2^32 -/
  sent : VcCount := {}
  /-- R51: RET_RCVD, modulo 2^32 -/
  retRcvd : VcCount := {}
  /-- R257: auditor shadow of sent -/
  shSent : VcCount := {}
  /-- R257: auditor shadow of retRcvd -/
  shRetRcvd : VcCount := {}
  /-- R51: flits sent since credit initialisation -/
  flits : Nat := 0
  /-- R28: flits sent since the last idle flit -/
  idleRun : Nat := 0
  /-- R13: CMP messages at egress, oldest first -/
  cmpQ : List OutMsg := []
  /-- R13: SNP messages at egress, oldest first -/
  snpQ : List OutMsg := []
  /-- R394: key phase of the transmitter -/
  phase : Bool := false
  /-- R394: a KEY_GO has made the other phase usable: switch at the next run boundary -/
  phaseNext : Bool := false
  /-- R394: RUN count of the transmit direction -/
  run : Nat := 0
  /-- R56: sequenced flits in the transmit run -/
  runFlits : Nat := 0
  /-- R56: slots of the transmit run as sent -/
  runSlots : List (List Byte) := []
  /-- R56: MAC slot of the last whole run, for the next sequenced flit -/
  macDue : List (List Byte) := []
  /-- R27: scrambler of each logical lane, transmit side -/
  scr : Vector (BitVec 31) 4 := Vector.replicate 4 0
  /-- R39: slots of the flit being packed -/
  packed : List (List Byte) := []
  /-- R35: how many of its leading slots continue a message begun in an earlier flit -/
  packedCont : Nat := 0
  /-- R39, R41: link-control slots that wait for room in the replay buffer, oldest first -/
  ctlQ : List (List Byte) := []
  /-- R53: a CREDIT_AUDIT is due and waits for room in the replay buffer -/
  auditDue : Bool := false
  /-- R44: a NAK in the flit being taken: the replay begins when its slots have been handled -/
  nakDue : Bool := false
  /-- Table CMD-4: flits replayed -/
  flitsReplayed : Nat := 0
  deriving DecidableEq, Repr, Inhabited

/-- a link-encryption key of one direction and phase (R393). -/
structure LinkKey where
  /-- R393: KEY -/
  key : Nat := 0
  /-- R393: IV_SEED -/
  iv : Nat := 0
  /-- R394: made usable by KEY_GO -/
  usable : Bool := false
  deriving DecidableEq, Repr, Inhabited

/-- link encryption of a port (R56, R393, R394). -/
structure PortEnc where
  /-- R393: home transmit, phase 0 -/
  tx0 : Option LinkKey := none
  /-- R393: home transmit, phase 1 -/
  tx1 : Option LinkKey := none
  /-- R393: home receive, phase 0 -/
  rx0 : Option LinkKey := none
  /-- R393: home receive, phase 1 -/
  rx1 : Option LinkKey := none
  /-- R393: session that owns the keys -/
  owner : Option Nat := none
  /-- Table CMD-11: LNK_ENC_ALG in force since the last link-up -/
  algInForce : Nat := 1
  /-- R56: encryption on for this link-up -/
  on : Bool := false
  deriving DecidableEq, Repr, Inhabited

/-- an HDM decoder of a PEER_CXL port (R195). -/
structure HdmDecoder where
  /-- R195: HPA base -/
  base : Nat := 0
  /-- R195: size -/
  size : Nat := 0
  /-- R195: committed and locked -/
  committed : Bool := false
  /-- R195: Commit Error -/
  error : Bool := false
  deriving DecidableEq, Repr, Inhabited

/-- link-layer credit counters of one CXL.mem class (R191). -/
structure CxlCredit where
  /-- R191: credits of the class -/
  pool : Nat := 0
  /-- R191: held -/
  avail : Nat := 0
  /-- R191: sent or received -/
  sent : Nat := 0
  /-- R191: returned -/
  ret : Nat := 0
  /-- R191: freed and not yet returned -/
  due : Nat := 0
  /-- R257: auditor shadow of messages sent or received -/
  shSent : Nat := 0
  /-- R257: auditor shadow of credits returned -/
  shRet : Nat := 0
  deriving DecidableEq, Repr, Inhabited

/-- an event record of a PEER_CXL port (R200). -/
structure CxlEvent where
  /-- R200: handle -/
  handle : Nat := 0
  /-- R200: 1 refused write, 2 snoop timeout, 3 poison delivered, 4 media error -/
  kind : Nat := 0
  /-- R200: fabric line -/
  addr : Nat := 0
  /-- R200: per-port timestamp -/
  time : Nat := 0
  deriving DecidableEq, Repr, Inhabited

/-- CXL state of a port (R190 to R203). -/
structure PortCxl where
  /-- R190: the CXL link is up -/
  up : Bool := false
  /-- Table CXL-1: rate of the link in GT/s, 0 while it is down -/
  rate : Nat := 0
  /-- Table CXL-1: bytes of a flit, 68 or 256 -/
  flit : Nat := 0
  /-- R190: physical lanes of the link -/
  laneMask : BitVec 4 := 0
  /-- R192: Mem_Enable of the CXL Device DVSEC -/
  memEnable : Bool := false
  /-- R192: agent ID accepted -/
  bound : Option Nat := none
  /-- R194: DPA layout: partition, window base, size in bytes -/
  layout : Option (List (Nat × Nat × Nat)) := none
  /-- R195: HDM decoders -/
  decoders : Vector HdmDecoder 4 := Vector.replicate 4 {}
  /-- R191: M2S Req -/
  m2sReq : CxlCredit := {}
  /-- R191: M2S RwD -/
  m2sRwd : CxlCredit := {}
  /-- R191: M2S BIRsp -/
  m2sBiRsp : CxlCredit := {}
  /-- R191: S2M NDR -/
  s2mNdr : CxlCredit := {}
  /-- R191: S2M DRS -/
  s2mDrs : CxlCredit := {}
  /-- R191: S2M BISnp -/
  s2mBiSnp : CxlCredit := {}
  /-- R191: internal TAG, CXL tag; at most 4,096 -/
  tagMap : List (Nat × Nat) := []
  /-- R199: per line, MemWr NoOp whose WB_ACK has not been sent -/
  wbOut : List (Nat × Nat) := []
  /-- R199: BISnp outstanding: line and snoop TAG -/
  biSnp : List (Nat × Nat) := []
  /-- R199: BIRsp held: line and response -/
  heldBi : List (Nat × Op) := []
  /-- R198: BIConflicts waiting behind queued messages: line, CXL tag, messages of the line still ahead -/
  conflicts : List (Nat × Nat × Nat) := []
  /-- Table CXL-5: Informational log -/
  evInfo : List CxlEvent := []
  /-- Table CXL-5: Warning log -/
  evWarn : List CxlEvent := []
  /-- Table CXL-5: Failure log -/
  evFail : List CxlEvent := []
  /-- Table CXL-5: Fatal log -/
  evFatal : List CxlEvent := []
  /-- Table CXL-5: event interrupt policy, one byte per log -/
  evPolicy : List Nat := [0, 0, 0, 0]
  /-- Table CXL-5: overflow of the Failure log: records lost, times of the first and last -/
  evLost : Nat × Nat × Nat := (0, 0, 0)
  /-- R200: next event handle -/
  evHandle : Nat := 1
  /-- Table CXL-5: per-port timestamp at the last Set Timestamp -/
  timestamp : Nat := 0
  /-- Table CXL-5: ns since PWRGOOD at the last Set Timestamp -/
  tsSetAt : Nat := 0
  /-- R395: stream, direction, key -/
  ideKeys : List (Nat × Nat × Nat) := []
  deriving DecidableEq, Repr, Inhabited

/-- what a module declares (Table LNK-9 MOD_DESC). -/
structure ModDesc where
  /-- R75: 0 transparent, 1 managed -/
  mode : Nat := 0
  /-- R164: capacity in GiB -/
  capGiB : Nat := 0
  /-- Table LNK-9: ranks -/
  ranks : Nat := 0
  /-- R164: DRAM chips per rank -/
  chips : Nat := 0
  /-- Table LNK-9: MAKER -/
  maker : Nat := 0
  /-- Table LNK-9: PRODUCT -/
  product : Nat := 0
  /-- Table LNK-9: typical read latency in ns -/
  latency : Nat := 0
  deriving DecidableEq, Repr, Inhabited

/-- R151, R173, R186: what a request to a memory port serves. -/
inductive MemWhy where
  /-- one copy of a backing read of a slice: slice, read entry, copy index (R91, R148, R236) -/
  | read (slice : Fin 16) (id : Nat) (copy : Nat)
  /-- a target of a write-buffer entry of a slice: slice, entry, target index (R151) -/
  | wbuf (slice : Fin 16) (entry : Nat) (target : Nat)
  /-- half 0 or 1 of the record of a backing extent (R180) -/
  | record (bx : Nat) (half : Nat)
  /-- a line read by patrol, or by the scrub: the slice that owns it, none in a metadata area (R246, R248) -/
  | scrub (patrol : Bool) (slice : Option (Fin 16))
  deriving DecidableEq, Repr, Inhabited

/-- a request queued or outstanding at a memory port (R76, R186). -/
structure MemReq where
  /-- R76: 0 MEM_RD, 1 MEM_WR, 2 MEM_ZERO, 3 MEM_WR of an extent record -/
  kind : Nat := 0
  /-- R74: MADDR -/
  maddr : Nat := 0
  /-- R186: partition charged -/
  part : Nat := 0
  /-- R333: fabric line served -/
  line : Nat := 0
  /-- R151: what the answer serves -/
  why : MemWhy := .record 0 0
  /-- R74: data of a MEM_WR -/
  data : Line := 0
  /-- R234: poison of a MEM_WR -/
  poison : Bool := false
  deriving DecidableEq, Repr, Inhabited

/-- a request outstanding on a memory port (R76). -/
structure MemOut where
  /-- R76: home's TAG -/
  tag : Nat := 0
  /-- R76: the request -/
  req : MemReq := {}
  /-- R330: core cycle of the placing -/
  placedAt : Nat := 0
  /-- R221: PORT_EPOCH recorded -/
  portEpoch : Nat := 0
  deriving DecidableEq, Repr, Inhabited

/-- the record of a backing extent that is not free (R180). -/
structure ExtRecord where
  /-- R165: BX -/
  bx : Nat := 0
  /-- Table POOL-3: FX -/
  fx : Nat := 0
  /-- Table POOL-3: STATE retired -/
  retired : Bool := false
  /-- Table POOL-3: TRIPLE -/
  triple : Bool := false
  /-- Table POOL-3: COPY -/
  copy : Nat := 0
  /-- Table POOL-3: PART -/
  part : Nat := 0
  /-- Table POOL-3: TIDX -/
  tidx : Nat := 0
  /-- R169: written-bitmap, 512 bits -/
  bitmap : Nat := 0
  deriving DecidableEq, Repr, Inhabited

/-- memory-port state (R164 to R189). -/
structure PortMem where
  /-- R164: descriptor of the attached module -/
  desc : Option ModDesc := none
  /-- R164: the module has been taken into the pool -/
  taken : Bool := false
  /-- R165: E_k, local extents contributed -/
  ek : Nat := 0
  /-- R165: M_k, metadata extents -/
  metaExt : Nat := 0
  /-- R165: BX_BASE_k -/
  bxBase : Nat := 0
  /-- R165: range kept for the port: base and E_k -/
  reserved : Option (Nat × Nat) := none
  /-- R175: free list: local extents pushed on the stack, top first -/
  pushed : List Nat := []
  /-- R175: free list below them: ascending runs lo, hi of free local extents -/
  fresh : List (Nat × Nat) := []
  /-- R186: requests queued at the scheduler, oldest first -/
  queue : List MemReq := []
  /-- R186: deficit per partition -/
  deficit : List (Nat × Nat) := []
  /-- R186: partition served last -/
  lastServed : Nat := 0
  /-- R76: requests outstanding, at most 4,096 -/
  outstanding : List MemOut := []
  /-- R189: the link went down with a module taken and has not come back -/
  away : Bool := false
  /-- R189: MEM_PORT_TIMEOUT expired: extents unreachable -/
  unreachable : Bool := false
  /-- R189: the module is back, and its records are being verified -/
  verifying : Bool := false
  /-- R180: records that the module of a port not yet in the pool keeps, BX counted from its first extent -/
  stored : List ExtRecord := []
  /-- R180: that module: MAKER, PRODUCT, capacity in GiB -/
  storedId : Nat × Nat × Nat := (0, 0, 0)
  /-- R383: digest of the expander's certificate chain; [] none -/
  chainDigest : List Byte := []
  deriving DecidableEq, Repr, Inhabited

/-- a message waiting in a crossbar queue (R12). -/
structure RxMsg where
  /-- R58: message -/
  op : Op := .rdShared
  /-- R60: SRC -/
  src : Nat := 0
  /-- R60: DEST -/
  dest : Nat := 0
  /-- R60: TAG -/
  tag : Nat := 0
  /-- R60: LADDR -/
  laddr : Nat := 0
  /-- R60: ATTR -/
  attr : BitVec 8 := 0
  /-- R60: AOP -/
  aop : Nat := 0
  /-- R60: SIZE -/
  size : Nat := 0
  /-- R60: TS -/
  ts : Nat := 0
  /-- R64: payload -/
  data : Line := 0
  /-- R64: META in Mask form -/
  be : BitVec 64 := 0
  /-- R65: payload poisoned -/
  poison : Bool := false
  /-- R14: slice that owns the line -/
  slice : Fin 16 := 0
  /-- R105: receive position at the port -/
  position : Nat := 0
  /-- R330: arrival stamp, in core cycles -/
  arrived : Nat := 0
  /-- R221: epochs recorded at entry -/
  epochs : Epochs := {}
  deriving DecidableEq, Repr, Inhabited

/-- one of the 24 ports (R20). -/
structure Port where
  /-- R218: PORT_EPOCH -/
  epoch : Nat := 0
  /-- R225: an advance of PORT_EPOCH is held -/
  epochHeld : Bool := false
  /-- R29: training -/
  link : PortLink := {}
  /-- R38: receive side -/
  rx : PortRx := {}
  /-- R41: transmit side -/
  tx : PortTx := {}
  /-- R12: REQ crossbar queue of the port, in receive order -/
  reqQ : List RxMsg := []
  /-- R12: WB crossbar queue -/
  wbQ : List RxMsg := []
  /-- R12: RSP crossbar queue -/
  rspQ : List RxMsg := []
  /-- R56: link encryption -/
  enc : PortEnc := {}
  /-- R190: CXL -/
  cxl : PortCxl := {}
  /-- R164: memory port -/
  mem : PortMem := {}
  /-- R12: MEM_RD_DATA received that wait for a write-buffer entry (R152), oldest first -/
  memQ : List MemIn := []
  /-- R224: SUMP_MSGS -/
  sumpMsgs : Nat := 0
  /-- R257: identities now failing: IDENT, SUB -/
  failing : List (Nat × Nat) := []
  /-- R330: the port's histogram is end to end -/
  histE2e : Bool := false
  deriving DecidableEq, Repr, Inhabited

/-- one snoop of a transaction (R103). -/
structure Snoop where
  /-- R90: agent snooped -/
  agent : Nat := 0
  /-- R90: snoop TAG -/
  tag : Nat := 0
  /-- Table MSG-9: snoop message -/
  op : Op := .snpInv
  /-- R103: RSP_WB_PENDING received -/
  wbPending : Bool := false
  /-- R104: the agent's WB_DIRTY was taken as its data -/
  wbTaken : Bool := false
  /-- R103: answered -/
  answered : Bool := false
  /-- Table HOM-4: answered RSP_S or RSP_S_DATA -/
  keepsS : Bool := false
  /-- R221: epochs recorded -/
  epochs : Epochs := {}
  deriving DecidableEq, Repr, Inhabited

/-- R91, R144, R173: how far the read of the home value has gone. -/
inductive ReadState where
  /-- no read is needed or started -/
  | none
  /-- the tag set, the page-map entry or the written-bitmap is awaited (R142, R171) -/
  | lookup
  /-- a line read from a frame is outstanding (its HBM read identifier) -/
  | hbm (id : Nat)
  /-- a backing read is outstanding or held (its read entry) -/
  | backing (id : Nat)
  /-- returned: data and poison -/
  | value (d : Line) (p : Bool)
  /-- discarded because snoop data arrived first (R91) -/
  | discarded
  deriving DecidableEq, Repr, Inhabited

/-- R86, R126, R132, R160, R182, R305: what a transaction entry serves. -/
inductive TxnKind where
  /-- a REQ of an agent -/
  | req (op : Op)
  /-- a WB_DIRTY handled under R104 case 2 -/
  | writeBack
  /-- an EVICT_CLEAN waiting for its store set (R120) -/
  | evict
  /-- a directory recall for the named requesting transaction (R126) -/
  | recall (for_ : Nat)
  /-- a recovery recall of a lost store entry (R132) -/
  | recovery
  /-- the internal transaction of DISCARD_RANGE (R182) -/
  | discard
  /-- an internal FLUSH_LINE of PERSIST_FLUSH (R160) -/
  | flush
  /-- the internal read of PAGE_COPY (R305) -/
  | copyRead
  /-- the internal write of PAGE_COPY (R305) -/
  | copyWrite
  deriving DecidableEq, Repr, Inhabited

/-- a transaction entry (R86, R91, R427). -/
structure Txn where
  /-- R15: entry identifier -/
  id : Nat := 0
  /-- R86: pool -/
  pool : TxnPool := .general
  /-- R86: what it serves -/
  kind : TxnKind := .req .rdShared
  /-- R87: where it stands -/
  status : TxnStatus := .waiting
  /-- R60: the message served, with its recorded epochs -/
  msg : RxMsg := {}
  /-- R60: port of arrival; none for internal work -/
  port : Option (Fin 24) := none
  /-- R168: partition whose window holds the line -/
  part : Nat := 0
  /-- R67: internal request under agent ID 255 -/
  internal : Bool := false
  /-- R223: its agent's epoch advanced while it was open -/
  staleRole : Bool := false
  /-- R119: waits for its store set -/
  waitStore : Bool := false
  /-- R174: waits for the allocator -/
  waitAlloc : Bool := false
  /-- R119: allocator answer held -/
  alloc : Option AllocCode := none
  /-- R154: held behind an active eviction slot -/
  waitSlot : Bool := false
  /-- R290: held by the drain of a commit -/
  drainHold : Bool := false
  /-- R142: the tag set is awaited -/
  needTag : Bool := false
  /-- R171: the page-map entry is awaited -/
  needExt : Bool := false
  /-- R171: the written-bitmap is awaited -/
  needMap : Bool := false
  /-- R125: attached: waits for a store way or a recall entry -/
  waitWay : Bool := false
  /-- R115: cache way pinned: set, way -/
  cway : Option (Nat × Nat) := none
  /-- R122: store way reserved or held -/
  storeWay : Option Nat := none
  /-- R91: directory state in the opening pass -/
  startDir : DirState := .I
  /-- Table OBS-7: memory-side-cache state in the opening pass -/
  startMsc : MscState := .absent
  /-- R91: snoops sent -/
  snoops : List Snoop := []
  /-- R105: every holder other than the requester was sent an invalidating snoop -/
  snoopAll : Bool := false
  /-- R91: data collected by a snoop, with poison -/
  snoopData : Option (Line × Bool) := none
  /-- R91: read of the home value -/
  read : ReadState := .none
  /-- Table HOM-4: completion fixed in the opening pass -/
  grant : Option Op := none
  /-- R64: bits [31:0] of domain time in ns at which the home took the value -/
  taken : Nat := 0
  /-- R147: frame pinned -/
  frame : Option Nat := none
  /-- R100: waits for the MEM_WR_ACK of the flushed line -/
  flushWait : Bool := false
  /-- R89: CMP messages not yet departed -/
  cmpsOut : Nat := 0
  /-- R73: code of the CMP_ERR sent, or 0 -/
  errCode : Nat := 0
  /-- R86, R104: a WB_DIRTY of case 1 or 3, which keeps its entry until its WB_ACK departs without opening its line -/
  aside : Bool := false
  deriving DecidableEq, Repr, Inhabited

/-- a valid directory-cache way (Table DIR-4). -/
structure CacheWay where
  /-- R113: CIDX -/
  set : Nat := 0
  /-- R112: way -/
  way : Nat := 0
  /-- Table DIR-4: V -/
  v : BitVec 64 := 0
  /-- Table DIR-4: STATE; I is release-pending -/
  state : DirState := .I
  /-- R105: EVICT_GUARD -/
  guard : Bool := false
  /-- Table DIR-4: DIRTY -/
  dirty : Bool := false
  /-- Table DIR-4: TAG -/
  tag : Nat := 0
  /-- Table DIR-4: SSET_HI -/
  ssetHi : Nat := 0
  /-- Table DIR-4: SWAY; none for a line in I that never held a store way -/
  sway : Option Nat := none
  /-- Table DIR-4: AGE -/
  age : Nat := 0
  /-- Table DIR-4: second identity copy: TAG, SSET_HI, SWAY -/
  ident2 : Nat × Nat × Option Nat := (0, 0, none)
  /-- Table DIR-4: flag array: VALID, held three times -/
  validT : BitVec 3 := 7
  /-- Table DIR-4: flag array: DIRTY, held three times -/
  dirtyT : BitVec 3 := 0
  deriving DecidableEq, Repr, Inhabited

/-- a directory-store entry that is not free (Table DIR-3). -/
structure StoreEntry where
  /-- R113: SIDX -/
  set : Nat := 0
  /-- R113: way -/
  way : Nat := 0
  /-- Table DIR-3: V -/
  v : BitVec 64 := 0
  /-- Table DIR-3: TAG -/
  tag : Nat := 0
  /-- Table DIR-3: STATE -/
  state : DirState := .S
  /-- R105: EVICT_GUARD -/
  guard : Bool := false
  /-- Table DIR-3: AGE -/
  age : Nat := 0
  deriving DecidableEq, Repr, Inhabited

/-- an entry of the store access table (R123). -/
structure StoreSet where
  /-- R123: set number SIDX -/
  set : Nat := 0
  /-- R123: COPY_VALID -/
  copyValid : Bool := false
  /-- R122: reservations: way, transaction -/
  reserved : List (Nat × Nat) := []
  /-- R123: transactions attached -/
  attached : List Nat := []
  /-- R123: the read of the set is outstanding -/
  reading : Bool := false
  /-- R125, R126: transactions that stay attached until a store way or a recall entry is there -/
  waiters : List Nat := []
  /-- R135: a disown sweep waits for the copy of the set -/
  sweep : Bool := false
  /-- R123: writes outstanding -/
  writes : Nat := 0
  /-- R132: RECOVERING -/
  recovering : Bool := false
  /-- R132: ways lost -/
  lost : List Nat := []
  /-- R132: candidate lines recalled -/
  recalled : List Nat := []
  /-- R131: the lines lost one by one; none listed: every untracked line of the set is a candidate -/
  only : List Nat := []
  deriving DecidableEq, Repr, Inhabited

/-- a hank-tag entry whose frame is not free, or whose MIRROR fields are not zero (Table MSC-3). -/
structure Frame where
  /-- R137: frame number F -/
  num : Nat := 0
  /-- Table MSC-3: VALID -/
  valid : BitVec 64 := 0
  /-- Table MSC-3: OWNED -/
  owned : BitVec 64 := 0
  /-- Table MSC-3: POISON -/
  poison : BitVec 64 := 0
  /-- Table MSC-3: HANK -/
  hank : Nat := 0
  /-- Table MSC-3: PART -/
  part : Nat := 0
  /-- Table MSC-3: RRPV -/
  rrpv : Nat := 0
  /-- Table MSC-3: FSTATE -/
  state : FrameState := .present
  /-- Table MSC-3: MIRROR_FSTATE, FSTATE of frame F xor 2 (R143) -/
  mirState : FrameState := .free
  /-- Table MSC-3: MIRROR_ANY_O, frame F xor 2 holds an O line (R143) -/
  mirAnyO : Bool := false
  deriving DecidableEq, Repr, Inhabited

/-- a way of the hank-tag cache (R141). -/
structure TagWay where
  /-- R141: LS[10:0] -/
  set : Nat := 0
  /-- R141: cache way 0-7 -/
  way : Nat := 0
  /-- R137: local set of the hank -/
  ls : Nat := 0
  /-- R141: way in the table set -/
  tway : Nat := 0
  /-- R141: recently used -/
  used : Bool := false
  /-- R141: copy of the hank's entry -/
  entry : Frame := {}
  /-- R141: parity bit over the whole way -/
  parity : Bool := false
  deriving DecidableEq, Repr, Inhabited

/-- an entry of the tag-set table (R142). -/
structure TagSet where
  /-- R142: local set -/
  ls : Nat := 0
  /-- R142: the copy holds the set -/
  copyValid : Bool := false
  /-- R142: transactions waiting -/
  waiting : List Nat := []
  /-- R142: the read of the set is outstanding -/
  reading : Bool := false
  /-- R142: writes outstanding -/
  writes : Nat := 0
  /-- R156: a walker of the slice works on the set's copy -/
  walk : Bool := false
  deriving DecidableEq, Repr, Inhabited

/-- a copy returned of a backing read (R236). -/
structure CopyGot where
  /-- R236: copy index -/
  copy : Nat := 0
  /-- R236: memory port -/
  port : Nat := 0
  /-- R236: MADDR -/
  maddr : Nat := 0
  /-- R236: data -/
  data : Line := 0
  /-- R236: poisoned -/
  poison : Bool := false
  /-- R236: decodes clean, corrected or poisoned -/
  good : Bool := true
  deriving DecidableEq, Repr, Inhabited

/-- a backing read of a slice; one with a frame is a place of the outstanding-fill table (R149). -/
structure BackRead where
  /-- R149: identifier -/
  id : Nat := 0
  /-- R149: LADDR -/
  line : Nat := 0
  /-- R148: partition -/
  part : Nat := 0
  /-- R149: frame it was issued for; none: not to be installed -/
  frame : Option Nat := none
  /-- R149: STALE -/
  stale : Bool := false
  /-- R149: demand transaction served, if any -/
  txn : Option Nat := none
  /-- R251: write-buffer entry a copy read fills, if any -/
  entry : Option Nat := none
  /-- R236: copies read: 1, or 3 of a TRIPLE extent -/
  total : Nat := 1
  /-- R236: copies returned -/
  got : List CopyGot := []
  /-- R236: the value has been delivered -/
  delivered : Bool := false
  deriving DecidableEq, Repr, Inhabited

/-- a target of a write-buffer entry (R151). -/
structure WbTarget where
  /-- R151: memory port -/
  port : Fin 24 := 0
  /-- R151: MADDR -/
  maddr : Nat := 0
  /-- R151: SENT -/
  sent : Bool := false
  /-- R186: queued at the scheduler -/
  queued : Bool := false
  /-- R151: acknowledged -/
  acked : Bool := false
  deriving DecidableEq, Repr, Inhabited

/-- a backing write-buffer entry (R151). -/
structure WbEntry where
  /-- R151: identifier; a later entry has a higher one (age) -/
  id : Nat := 0
  /-- R151: KIND -/
  kind : WbKind := .data
  /-- R151: LADDR -/
  line : Nat := 0
  /-- R151: TARGETS -/
  targets : List WbTarget := []
  /-- R151: data -/
  data : Line := 0
  /-- R151: POISON -/
  poison : Bool := false
  /-- R151: reserved: its copy read has not returned -/
  reservedRead : Bool := false
  /-- R178: kept unsent until the COLLECT answer -/
  holdAlloc : Bool := false
  /-- R186: partition charged -/
  part : Nat := 0
  /-- R159: made by a flush or drain walker -/
  walker : Bool := false
  /-- R100: FLUSH_LINE transaction that waits for it -/
  flushTxn : Option Nat := none
  /-- R244, R245: a rewrite that the repeat-correct table asked for -/
  ofCe : Bool := false
  deriving DecidableEq, Repr, Inhabited

/-- an active eviction slot (R153). -/
structure EvSlot where
  /-- R153: OUT_HANK -/
  outHank : Nat := 0
  /-- R153: IN_HANK; none when the frame is retired (R252) -/
  inHank : Option Nat := none
  /-- R153: frame -/
  frame : Nat := 0
  /-- R153: OMASK -/
  omask : BitVec 64 := 0
  /-- R153: lines whose copy read is outstanding -/
  copying : BitVec 64 := 0
  /-- R153: partition of the incoming hank -/
  inPart : Nat := 0
  /-- R145: RRPV given at the retag -/
  rrpv : Nat := 0
  /-- R154: line whose fill run is issued at the retag -/
  fillRun : Option Nat := none
  /-- R252: retire the frame at the end -/
  retire : Bool := false
  /-- R159, R160: the slot was taken before the flush walker reached its set -/
  flushed : Bool := false
  deriving DecidableEq, Repr, Inhabited

/-- R16, R153, R156: what an outstanding HBM read serves. -/
inductive HbmWhy where
  /-- the home value for a transaction entry, from a frame line -/
  | demand (txn : Nat)
  /-- an eviction copy into a write-buffer entry: frame, line, entry -/
  | evict (frame : Nat) (line : Nat) (entry : Nat)
  /-- a walker copy into a write-buffer entry: frame, line, entry -/
  | walk (frame : Nat) (line : Nat) (entry : Nat)
  /-- the fabric extent entry for a transaction entry -/
  | extent (txn : Nat)
  /-- the written-bitmap for a transaction entry -/
  | bitmap (txn : Nat)
  /-- R141: the entry of a hank-tag-cache way that failed its parity check: local set, way in the table set -/
  | tagEntry (ls : Nat) (tway : Nat)
  /-- R171: the entry of a page-map-cache way that failed its parity check: fabric extent -/
  | mapEntry (fx : Nat)
  deriving DecidableEq, Repr, Inhabited

/-- a way of a slice's page-map cache (R171). -/
structure MapWay where
  /-- R171: fabric extent whose entry is held -/
  fx : Nat := 0
  /-- R171: way of the set FX[8:0], 0-7 -/
  way : Nat := 0
  /-- R171: copy of the fabric extent table entry (Table POOL-2) -/
  entry : Nat := 0
  /-- R171: parity bit over the way -/
  parity : Bool := false
  deriving DecidableEq, Repr, Inhabited

/-- an outstanding HBM read of a slice. -/
structure HbmRead where
  /-- R16: identifier -/
  id : Nat := 0
  /-- R16: what it serves -/
  why : HbmWhy := .demand 0
  /-- R19: device HBM address -/
  ha : Nat := 0
  /-- R123: data as the controller serves it (access order) -/
  data : Line := 0
  /-- R229: POISON_CODE of the line -/
  poison : Bool := false
  /-- R139: POISON bit of the line in its hank-tag entry -/
  mark : Bool := false
  /-- R151: its reserved entry has been replaced: the data is discarded, the copy counts as done -/
  done : Bool := false
  deriving DecidableEq, Repr, Inhabited

/-- an allocator answer on its way to a slice (R174). -/
structure AllocAnswer where
  /-- R174: transaction of a REQ request; none for COLLECT -/
  txn : Option Nat := none
  /-- R178: line collected -/
  laddr : Nat := 0
  /-- R175: answer -/
  code : AllocCode := .ok
  deriving DecidableEq, Repr, Inhabited

/-- shadow counts of a slice's auditor (R257). -/
structure Shadow where
  /-- R257: general entries open -/
  genOpen : Nat := 0
  /-- R257: general entries waiting -/
  genWait : Nat := 0
  /-- R257: write-back entries open -/
  wbOpen : Nat := 0
  /-- R257: recall entries open -/
  recOpen : Nat := 0
  /-- R257: write-buffer entries filled -/
  wbuf : Nat := 0
  /-- R257: eviction slots active -/
  slots : Nat := 0
  /-- R257: snoops outstanding -/
  snoopsOut : Nat := 0
  /-- R257: set-blocked requests -/
  sbq : Nat := 0
  /-- R257: directory-cache ways valid -/
  dirValid : Nat := 0
  /-- R257: directory-cache ways dirty -/
  dirDirty : Nat := 0
  /-- R257: store entries S -/
  stS : Nat := 0
  /-- R257: store entries X -/
  stX : Nat := 0
  /-- R257: store access table entries in use -/
  sat : Nat := 0
  /-- R257: frames valid -/
  frValid : Nat := 0
  /-- R257: frames retired -/
  frRetired : Nat := 0
  deriving DecidableEq, Repr, Inhabited

/-- a walker of a slice (R156, R159, R160). -/
structure Walker where
  /-- R156: running -/
  active : Bool := false
  /-- R156: next local set to visit -/
  next : Nat := 0
  /-- R160: first hank of the range -/
  lo : Nat := 0
  /-- R160: first hank beyond the range -/
  hi : Nat := 0
  /-- R156: every frame -/
  all : Bool := true
  deriving DecidableEq, Repr, Inhabited

/-- a census walk (R261). -/
structure Census where
  /-- R261: next set or extent -/
  next : Nat := 0
  /-- R261: tally: valid or allocated -/
  present : Nat := 0
  /-- R261: tally: free -/
  free : Nat := 0
  /-- R261: tally: retired -/
  retired : Nat := 0
  deriving DecidableEq, Repr, Inhabited

/-- core cycles by slot class (R326). -/
structure SlotCount where
  /-- R318: RETIRED -/
  retired : Nat := 0
  /-- R318: WASTED -/
  wasted : Nat := 0
  /-- R318: FRONT_STARVED -/
  front : Nat := 0
  /-- R318: BACK_STARVED -/
  back : Nat := 0
  deriving DecidableEq, Repr, Inhabited

/-- a home slice (R15). -/
structure Slice where
  /-- R15: transaction entries in use, in order of acceptance -/
  txns : List Txn := []
  /-- R15: next entry identifier -/
  nextTxn : Nat := 0
  /-- R13, R88: round-robin pointer REQ: the first port considered next -/
  rrReq : Nat := 0
  /-- R13, R88: round-robin pointer WB -/
  rrWb : Nat := 0
  /-- R13, R88: round-robin pointer RSP -/
  rrRsp : Nat := 0
  /-- R112: directory cache, valid ways -/
  dcache : List CacheWay := []
  /-- R112: directory store, entries not free -/
  dstore : List StoreEntry := []
  /-- R123: store access table, at most 64 -/
  sat : List StoreSet := []
  /-- R128: set-blocked queue, at most 64 -/
  sbq : List Nat := []
  /-- R125, R126: transactions that wait for a store way or a recall entry, in the order they began to wait -/
  wayQ : List Nat := []
  /-- R141: hank-tag cache -/
  tagc : List TagWay := []
  /-- R142: tag-set table, at most 32 -/
  tst : List TagSet := []
  /-- R149: backing reads outstanding, the outstanding-fill table among them -/
  bReads : List BackRead := []
  /-- R149: next backing-read identifier -/
  nextB : Nat := 0
  /-- R151: write buffer, at most 512 -/
  wbuf : List WbEntry := []
  /-- R151: next write-buffer identifier -/
  nextWb : Nat := 0
  /-- R153: eviction slots, at most 64 -/
  slots : List EvSlot := []
  /-- R16: HBM reads outstanding -/
  reads : List HbmRead := []
  /-- R16: next read identifier -/
  nextRead : Nat := 0
  /-- R174: allocator answers -/
  answers : List AllocAnswer := []
  /-- R171: page-map cache, most recently inserted first -/
  pmCache : List MapWay := []
  /-- R235: page-map reads that wait for their line to be rebuilt from the extent records -/
  mapHeld : List HbmRead := []
  /-- R187: BOUND[p] where above PART_TXN_CAP -/
  bound : List (Nat × Nat) := []
  /-- R107: snoops sent -/
  sent : Nat := 0
  /-- R107: snoops answered by response -/
  ansRsp : Nat := 0
  /-- R107: snoops answered by timeout -/
  ansTo : Nat := 0
  /-- R156: drain walker -/
  drain : Walker := {}
  /-- R159: flush walker -/
  flush : Walker := {}
  /-- R157: disable sweep: next local set -/
  sweepOff : Option Nat := none
  /-- R135: disown sweep: next store set -/
  disownPos : Option Nat := none
  /-- R160: persist sweep: next store set -/
  persistPos : Option Nat := none
  /-- R261: census walk -/
  census : Census := {}
  /-- R257: auditor shadow counts -/
  shadow : Shadow := {}
  /-- R257: identities now failing: IDENT, SUB -/
  failing : List (Nat × Nat) := []
  /-- R318: fixed slot-class counters -/
  cls : SlotCount := {}
  /-- R326: what the slice did in the current core cycle -/
  cyc : Option SubClass := none
  /-- R327: partition of the current cycle -/
  cycPart : Nat := 0
  /-- R326: blocking cause of the highest ready source -/
  starve : Option SubClass := none
  /-- R88: consecutive cycles in which each source of Table HOM-3, in rank order, has been ready without being taken -/
  waits : List Nat := [0, 0, 0, 0, 0, 0]
  /-- R88: rank of the source whose pass took the current cycle, 1-6; 0 none -/
  cycRank : Nat := 0
  /-- R88, R108: snoop-timeout expiries that wait for their pass: line, agent -/
  expired : List (Nat × Nat) := []
  deriving DecidableEq, Repr, Inhabited

/-- an access that waits at an HBM controller (R161, R186). -/
structure HeldAccess where
  /-- R161: bank number within the stack -/
  bank : Nat := 0
  /-- R19: device HBM address -/
  ha : Nat := 0
  /-- R186: partition a cache-data access is charged to -/
  part : Nat := 0
  /-- R245: it writes its line -/
  write : Bool := false
  deriving DecidableEq, Repr, Inhabited

/-- an HBM stack and its controller (R161, R162, R364). -/
structure Stack where
  /-- R355: trained -/
  trained : Bool := false
  /-- R162: last temperature reading in 0.1 C -/
  temp : Int := 250
  /-- Table MSC-7: thermal step 0-3 -/
  step : Nat := 0
  /-- R161: RAAIMT of the stack -/
  raaimt : Nat := 32
  /-- R161: RAAMMT of the stack -/
  raammt : Nat := 96
  /-- R161: RAA per bank number -/
  raa : List (Nat × Nat) := []
  /-- R161: refresh commands issued -/
  refreshes : Nat := 0
  /-- R161: refresh-management commands issued -/
  rfms : Nat := 0
  /-- R364: retrain-pending -/
  retrainPending : Bool := false
  /-- R364: interface calibrations done -/
  calibrations : Nat := 0
  /-- R161: accesses whose activation waits for refresh management of its bank, oldest first -/
  held : List HeldAccess := []
  /-- R186: deficit per partition, of cache-data accesses -/
  deficit : List (Nat × Nat) := []
  /-- R186: partition served last -/
  lastServed : Nat := 0
  /-- R253: entries of the bank relocation table the controller caches, newest first, at most 1,024 -/
  relocCache : List Nat := []
  deriving DecidableEq, Repr, Inhabited

/-- the HBM of the device and the cache state. -/
structure Hbm where
  /-- R17: cache data region, byte cells -/
  mem : Memory := []
  /-- R229: lines of the HBM (HA div 64) whose metadata holds POISON_CODE 0xF -/
  poisoned : List Nat := []
  /-- R139: hank-tag table, frames not free -/
  frames : List Frame := []
  /-- R19: stacks -/
  stk : Vector Stack 4 := Vector.replicate 4 {}
  /-- R155: cache state -/
  cache : CacheState := .enabled
  /-- R163: excluded banks in exclusion order: stack, pseudo-channel, SID, BA -/
  banks : List (Nat × Nat × Nat × Nat) := []
  /-- R253: bank relocation table: entry i*8192+r, spare block -/
  reloc : List (Nat × Nat) := []
  /-- R253: next spare block to consider -/
  nextSpare : Nat := 0
  /-- R253: relocation in progress: bank index, next ROW -/
  bankJob : Option (Nat × Nat) := none
  /-- R356: metadata structures initialised -/
  initDone : Bool := false
  deriving DecidableEq, Repr, Inhabited

/-- a fabric extent table entry that is not UNALLOCATED (Table POOL-2). -/
structure FxEntry where
  /-- R169: FX -/
  fx : Nat := 0
  /-- Table POOL-2: BX -/
  bx : Nat := 0
  /-- Table POOL-2: STATE -/
  state : ExtState := .allocated
  /-- Table POOL-2: TRIPLE -/
  triple : Bool := false
  /-- Table POOL-2: TIDX -/
  tidx : Nat := 0
  /-- Table POOL-2: PART -/
  part : Nat := 0
  deriving DecidableEq, Repr, Inhabited

/-- an allocation request at the allocator (R175). -/
structure AllocReq where
  /-- R175: slice -/
  slice : Fin 16 := 0
  /-- R175: COLLECT rather than REQ -/
  collect : Bool := false
  /-- R174: transaction -/
  txn : Option Nat := none
  /-- R178: line -/
  laddr : Nat := 0
  /-- R175: partition -/
  part : Nat := 0
  deriving DecidableEq, Repr, Inhabited

/-- state of a partition (R166, R177). -/
structure PartState where
  /-- R3: partition number -/
  part : Nat := 0
  /-- R166: ALLOC[p] -/
  alloc : Nat := 0
  /-- R175: PTR[p] -/
  ptr : Nat := 23
  /-- R177: REFUSED -/
  refused : Bool := false
  /-- Table CMD-5: first refusal code -/
  firstCode : Nat := 0
  /-- R257: auditor shadow of ALLOC[p] -/
  shAlloc : Nat := 0
  deriving DecidableEq, Repr, Inhabited

/-- a retirement or rebuild copy of an extent (R238, R251). -/
structure ExtJob where
  /-- R251: extent retired; none for a lost TRIPLE copy -/
  oldBx : Option Nat := none
  /-- R251: spare -/
  newBx : Nat := 0
  /-- R251: FX -/
  fx : Nat := 0
  /-- R251: copy index -/
  copy : Nat := 0
  /-- R251: next line of the extent, 0-32767 -/
  next : Nat := 0
  /-- R251: copies outstanding -/
  reads : Nat := 0
  deriving DecidableEq, Repr, Inhabited

/-- backing memory and allocator (R164 to R189). -/
structure Pool where
  /-- R169: fabric extent table -/
  fxs : List FxEntry := []
  /-- R169: backing extent table and written-bitmaps -/
  recs : List ExtRecord := []
  /-- R172: triple table: TIDX, BX of copies 1 and 2 -/
  triples : List (Nat × Nat × Nat) := []
  /-- R166: partition state, partitions touched since reset -/
  parts : List PartState := []
  /-- R175: requests at the allocator, oldest first -/
  queue : List AllocReq := []
  /-- R175: rotating order: next slice -/
  rr : Nat := 0
  /-- R181: the pool has been rebuilt since reset -/
  rebuilt : Bool := false
  /-- R238: lost TRIPLE copies: FX, copy -/
  degraded : List (Nat × Nat) := []
  /-- R182: pages being discarded, by hank number, with the lines whose discard is done and that no write has followed -/
  discards : List (Nat × Mask) := []
  /-- R235: HBM lines of the page map that wait to be rebuilt from the extent records -/
  mapLost : List Nat := []
  /-- R251: copies in progress -/
  jobs : List ExtJob := []
  /-- R254: ledger retirements: port, local extent, MAKER, PRODUCT, capacity -/
  retiredExt : List (Nat × Nat × Nat × Nat × Nat) := []
  /-- R257: identities now failing -/
  failing : List (Nat × Nat) := []
  /-- R257: shadow: allocated -/
  shAllocated : Nat := 0
  /-- R257: shadow: free -/
  shFree : Nat := 0
  /-- R257: shadow: retired -/
  shRetired : Nat := 0
  /-- R261: allocator census walk -/
  census : Census := {}
  deriving DecidableEq, Repr, Inhabited

/-- an error record (Table PROT-8). -/
structure LogRec where
  /-- Table PROT-8: SEQ -/
  seq : Nat := 0
  /-- Table PROT-8: TIME -/
  time : Nat := 0
  /-- Table PROT-8: CLASS -/
  cls : Nat := 0
  /-- Table PROT-8: TIME_RELATIVE -/
  relative : Bool := false
  /-- Table PROT-8: NOTIFIED -/
  notified : Bool := false
  /-- Table PROT-8: COALESCED -/
  coalesced : Bool := false
  /-- Table PROT-8: SOURCE_KIND -/
  srcKind : Nat := 7
  /-- Table PROT-8: SOURCE -/
  src : Nat := 0
  /-- Table PROT-8: COUNT -/
  count : Nat := 1
  /-- Table PROT-8: ADDR -/
  addr : Option Nat := none
  /-- Table PROT-8: ADDR_KIND -/
  addrKind : Nat := 0
  /-- Table PROT-8: PART -/
  part : Option Nat := none
  /-- Table PROT-8: AGENT -/
  agent : Option Nat := none
  /-- Table PROT-8: SEVERITY -/
  severity : Nat := 0
  /-- Table PROT-8: DETAIL bytes 36-51 as one number -/
  detail : Nat := 0
  /-- Table PROT-8: DOMAIN_TIME -/
  domTime : Nat := 0
  /-- R249: ns since PWRGOOD at which it was written -/
  firstAt : Nat := 0
  /-- R309: its HBM line is uncorrectable -/
  lost : Bool := false
  deriving DecidableEq, Repr, Inhabited

/-- a repeat-correct entry (R243). -/
structure RcEntry where
  /-- R243: HBM address, else backing -/
  hbm : Bool := true
  /-- R243: memory port -/
  port : Nat := 0
  /-- R243: HBM address or MADDR -/
  addr : Nat := 0
  /-- R243: COUNT -/
  count : Nat := 0
  /-- R243: FIRST, ns since PWRGOOD -/
  first : Nat := 0
  /-- R243: REWRITTEN -/
  rewritten : Bool := false
  /-- R243: SYMBOL_MAP -/
  map : Nat := 0
  deriving DecidableEq, Repr, Inhabited

/-- scrub state (R248, Table PROT-7). -/
structure Scrub where
  /-- Table PROT-7: STATE -/
  state : Nat := 0
  /-- Table PROT-7: LINES_READ -/
  read : Nat := 0
  /-- Table PROT-7: LINES_SKIPPED -/
  skipped : Nat := 0
  /-- Table PROT-7: CORRECTED -/
  corrected : Nat := 0
  /-- Table PROT-7: UNCORRECTABLE -/
  uncorrectable : Nat := 0
  /-- Table PROT-7: PERSISTENT -/
  persistent : Nat := 0
  /-- Table PROT-7: ADDR, first 16 -/
  addrs : List Nat := []
  /-- R248: target HBM -/
  hbm : Bool := true
  /-- R248: memory port -/
  port : Nat := 0
  /-- R248: next address -/
  next : Nat := 0
  /-- R248: start of the range -/
  start : Nat := 0
  /-- R248: end of the range -/
  stop : Nat := 0
  /-- R248: rate in MiB/s -/
  rate : Nat := 0
  /-- R248: lines asked of a memory port whose answers are still to come -/
  waiting : Nat := 0
  deriving DecidableEq, Repr, Inhabited

/-- error log, repeat-correct table, scrubs. -/
structure Prot where
  /-- R249: records held, newest first, at most 65,536 -/
  log : List LogRec := []
  /-- R249: SEQ of the next record -/
  nextSeq : Nat := 0
  /-- R243: repeat-correct table, at most 256 -/
  rct : List RcEntry := []
  /-- R248: scrub -/
  scrub : Scrub := {}
  /-- R246: patrol position, HBM address -/
  patrolHbm : Nat := 0
  /-- R246: patrol position of each memory port, MADDR -/
  patrolBacking : Vector Nat 24 := Vector.replicate 24 0
  /-- R239: triplicated words whose three copies do not agree now -/
  upsets : List TmrUpset := []
  /-- R255: failed-unit mask of the last checker self-test -/
  selftestFailed : Nat := 0
  /-- R255: extended checker self-test at the next reset -/
  selftestNext : Bool := false
  deriving DecidableEq, Repr, Inhabited

/-- containment (R263 to R269). -/
structure Cons where
  /-- R265: CONTAINED -/
  contained : Bool := false
  /-- R263: FIRST_FAULT -/
  first : Nat := 0
  /-- R264: SALVAGE_OK -/
  salvage : Bool := false
  /-- Table HOST-8: LATER_FAULTS -/
  later : Nat := 0
  /-- R265: containment latch in MRAM slot 8: fault code, domain time, ns since PWRGOOD -/
  latch : Option (Nat × Nat × Nat) := none
  deriving DecidableEq, Repr, Inhabited

/-- work of a command not yet completed, or continuing (R298). -/
structure Work where
  /-- R298: OPCODE -/
  op : Nat := 0
  /-- R298: COOKIE -/
  cookie : Nat := 0
  /-- R270: mailbox it came by -/
  via : Via := .primary
  /-- R298: the command has completed (TIMEOUT or started) -/
  responded : Bool := false
  /-- R298: argument: base, port, agent, frame ... -/
  arg0 : Nat := 0
  /-- R298: argument: length ... -/
  arg1 : Nat := 0
  /-- R298: progress -/
  arg2 : Nat := 0
  /-- R298: second argument -/
  arg3 : Nat := 0
  /-- R159: write-buffer entries waited for: slice, identifier -/
  entries : List (Nat × Nat) := []
  /-- R215: RELAY_ID when it came by relay -/
  relayId : Nat := 0
  /-- R160: count reported -/
  count : Nat := 0
  deriving DecidableEq, Repr, Inhabited

/-- a key, index and value. -/
structure CfgEnt where
  /-- R315: key code -/
  key : Nat := 0
  /-- R315: INDEX -/
  index : Nat := 0
  /-- R315: VALUE -/
  value : Nat := 0
  deriving DecidableEq, Repr, Inhabited

/-- an open configuration transaction (R286). -/
structure CfgTxn where
  /-- R286: TXN_ID -/
  id : Nat := 0
  /-- R286: domain scope -/
  domain : Bool := false
  /-- R287: staged values, at most 4,096 -/
  staged : List CfgEnt := []
  /-- R290: phase of its CFG_COMMIT -/
  phase : CommitPhase := .open
  /-- R271: COOKIE of the CFG_COMMIT -/
  cookie : Nat := 0
  /-- R270: mailbox of the CFG_COMMIT -/
  via : Via := .primary
  deriving DecidableEq, Repr, Inhabited

/-- follow-up of a disruptive commit (R290). -/
structure FollowUp where
  /-- R290: TXN_ID -/
  txn : Nat := 0
  /-- R290: ports that train in a new personality -/
  ports : List Nat := []
  /-- R290: caching IDs being swept -/
  agents : List Nat := []
  deriving DecidableEq, Repr, Inhabited

/-- a mailbox (R270, R273). -/
structure Mbx where
  /-- R273: state -/
  state : MbxState := .idle
  /-- Table HOST-6: LAST_STATUS -/
  lastStatus : Nat := 0
  /-- R273: RING_IGNORED -/
  ringIgnored : Nat := 0
  /-- R271: command area, bytes from offset 0 -/
  cmd : Memory := []
  /-- R272: response area: the last response -/
  resp : List Byte := []
  /-- R271: OPCODE of the command taken -/
  op : Nat := 0
  /-- R271: COOKIE of the command taken -/
  cookie : Nat := 0
  deriving DecidableEq, Repr, Inhabited

/-- a notification event in the intake (R425, Table MBX-5). -/
structure Event where
  /-- Table MBX-5: NTYPE -/
  ntype : Nat := 0
  /-- Table MBX-4: ARG -/
  arg : Nat := 0
  /-- Table MBX-5: word 1 -/
  word : Option Nat := none
  /-- R425: SEQ of the error record notified -/
  seq : Option Nat := none
  deriving DecidableEq, Repr, Inhabited

/-- a watermark (R283 to R285). -/
structure Watermark where
  /-- R284: CROSSED -/
  crossed : Bool := false
  /-- R285: PEAK -/
  peak : Nat := 0
  /-- R285: compare with LEVEL in the next cycle -/
  recheck : Bool := false
  deriving DecidableEq, Repr, Inhabited

/-- Spindle, mailboxes, notifications and configuration. -/
structure Mgmt where
  /-- Table HOST-5: MGMT_STATE.STATE -/
  state : MgmtState := .notReady
  /-- Table HOST-5: MGMT_FAULT -/
  fault : Bool := false
  /-- Table HOST-5: HALT_CAUSE -/
  haltCause : Nat := 0
  /-- R270: primary host mailbox -/
  pri : Mbx := {}
  /-- R276: secondary mailbox -/
  sec : Mbx := {}
  /-- R298: work in progress -/
  works : List Work := []
  /-- R277: notification queue, head first, at most 512 words -/
  nq : List (BitVec 64) := []
  /-- R22, R282: words at the tail of the queue that the crossing does not show to the reader yet -/
  nqHidden : Nat := 0
  /-- R22, R282: places read empty that the crossing does not show to Spindle yet -/
  nqFreed : Nat := 0
  /-- R277: NSEQ of the next packet -/
  nseq : Nat := 0
  /-- R280: NQ_LOST -/
  nqLost : Nat := 0
  /-- R425: event intake, head first, at most 256 -/
  intake : List Event := []
  /-- R425: dropped events the intake keeps -/
  intakeLost : Nat := 0
  /-- R283: watermarks, numbered as R401 -/
  wms : Vector Watermark 49 := Vector.replicate 49 {}
  /-- R316: configuration in force where it differs from the default, by key and index -/
  cfg : List CfgEnt := []
  /-- R8: RWL fields are locked -/
  locked : Bool := false
  /-- R286: open transaction -/
  txn : Option CfgTxn := none
  /-- R286: next TXN_ID -/
  nextTxn : Nat := 1
  /-- R155: cache state change armed for the next window -/
  windowCache : Option CacheState := none
  /-- R290: follow-ups in progress -/
  followUps : List FollowUp := []
  /-- R357: a CFG_COMMIT has completed with OK since reset -/
  committed : Bool := false
  /-- R384: configuration digest -/
  digest : List Byte := []
  /-- R242: DMA channels with status CH_HALT_UE: channel, source address -/
  dmaHalted : List (Nat × Nat) := []
  /-- R242, R300: lines a DMA channel has already retried: channel, address -/
  dmaRetried : List (Nat × Nat) := []
  /-- R392: live activation: slot, cookie, mailbox, last SEQ notified -/
  handover : Option (Nat × Nat × Nat × Nat) := none
  /-- R305: lines PAGE_COPY has read and not yet written: line, data, poison -/
  dmaLines : List (Nat × Line × Bool) := []
  /-- R240: pages that took a fetch trap within the last second: page, ns since PWRGOOD -/
  trapPages : List (Nat × Nat) := []
  deriving DecidableEq, Repr, Inhabited

/-- a note a secondary holds for the primary (R279). -/
structure NoteHeld where
  /-- R279: packet words -/
  words : List Nat := []
  deriving DecidableEq, Repr, Inhabited

/-- what the primary knows of a device of the domain (R217). -/
structure Peer where
  /-- R217: READY -/
  ready : Bool := false
  /-- R217: FAULT_N asserted -/
  faultN : Bool := false
  /-- R217: in containment -/
  contained : Bool := false
  /-- R217: domain time valid -/
  timeValid : Bool := false
  /-- R295: DIVERGED -/
  diverged : Bool := false
  /-- R279: NOTE_SEQ expected next -/
  noteSeq : Nat := 0
  deriving DecidableEq, Repr, Inhabited

/-- a relay outstanding on the primary (R215). -/
structure Relay where
  /-- R215: RELAY_ID -/
  id : Nat := 0
  /-- R215: target device -/
  target : Nat := 0
  /-- R215: OPCODE -/
  op : Nat := 0
  /-- R215: COOKIE -/
  cookie : Nat := 0
  /-- R215: response bytes received -/
  got : List Byte := []
  deriving DecidableEq, Repr, Inhabited

/-- a domain commit on the primary (R293, R294). -/
structure Vote where
  /-- R293: COMMIT_ID -/
  id : Nat := 0
  /-- R294: TXN_ID -/
  txn : Nat := 0
  /-- R293: devices that voted yes -/
  yes : List Nat := []
  /-- R293: no votes: device, DETAIL, key, index -/
  no : List (Nat × Nat × Nat × Nat) := []
  /-- R294: decision: true commit, false abort -/
  decided : Option Bool := none
  /-- R294: APPLY_AT -/
  applyAt : Nat := 0
  /-- R294: devices that have acknowledged -/
  acks : List Nat := []
  /-- R294: CFG_COMMIT has completed -/
  completed : Bool := false
  deriving DecidableEq, Repr, Inhabited

/-- domain ring, roles and domain commit (R204 to R226, R292 to R295). -/
structure Dom where
  /-- R204: STRAP[3:0] as sampled -/
  straps : BitVec 4 := 2
  /-- R209: device index -/
  index : Option Nat := some 0
  /-- R208: ring formed -/
  formed : Bool := false
  /-- R210: ring DOWN -/
  down : Bool := false
  /-- R208: FORM_ID last issued or forwarded -/
  formId : Nat := 0
  /-- R209: FORM_IDs that the device has issued -/
  formIds : List Nat := []
  /-- R208: domain time t0 at the send of FORM -/
  formSent : Nat := 0
  /-- R208: N -/
  n : Nat := 1
  /-- R208: LINK_DELAY in 1/16 ns -/
  linkDelay : Nat := 0
  /-- R209: INDEX_CONFLICT -/
  indexConflict : Bool := false
  /-- R209: DUAL_PRIMARY -/
  dualPrimary : Bool := false
  /-- R207: frames discarded for CRC -/
  ringCrc : Nat := 0
  /-- R208: a FORM is out -/
  forming : Bool := false
  /-- R217: devices of the domain -/
  peers : Vector Peer 64 := Vector.replicate 64 {}
  /-- R211: domain time in 1/2 ns -/
  time : Nat := 0
  /-- R211: domain time is valid -/
  timeValid : Bool := false
  /-- R211: domain time has started -/
  timeRun : Bool := false
  /-- R211: 1/2 ns by which the device is ahead, advancing at half rate -/
  halfRate : Nat := 0
  /-- R211: offset being slewed, 1/2 ns -/
  slew : Int := 0
  /-- R215: command bytes of a relayed command received so far -/
  relayIn : List Byte := []
  /-- R215: RELAY_ID being received -/
  relayInId : Nat := 0
  /-- R215: relay outstanding -/
  relay : Option Relay := none
  /-- R215: next RELAY_ID -/
  nextRelay : Nat := 0
  /-- R279: unsent notes, at most 64 -/
  notes : List NoteHeld := []
  /-- R279: NOTE_SEQ -/
  noteSeq : Nat := 0
  /-- R279: notes lost since the last RELAY_NOTE -/
  notesLost : Nat := 0
  /-- R293: domain commit on the primary -/
  vote : Option Vote := none
  /-- R293: next COMMIT_ID -/
  nextCommit : Nat := 0
  /-- R293: commit image received so far -/
  image : List Byte := []
  /-- R293: the image is complete and waits for the device's own commit to end -/
  imageWhole : Bool := false
  /-- R293: COMMIT_ID being received -/
  imageId : Nat := 0
  /-- R293: PREPARED: COMMIT_ID and shadows -/
  prepared : Option (Nat × List CfgEnt) := none
  /-- R294: last decision acted on -/
  decided : Option (Nat × Bool) := none
  /-- R294: commit decided, window waits for APPLY_AT and the drain: COMMIT_ID, APPLY_AT -/
  deciding : Option (Nat × Nat) := none
  deriving DecidableEq, Repr, Inhabited

/-- epoch and status of an agent ID (Table DOM-5). -/
structure Binding where
  /-- Table DOM-5: EPOCH -/
  epoch : Nat := 0
  /-- Table DOM-5: STATUS -/
  status : BindStatus := .idle
  /-- Table CMD-6: declared failed since last bound -/
  failed : Bool := false
  /-- R225: an advance is held -/
  epochHeld : Bool := false
  /-- R222: STATUS once the disown sweep has ended -/
  after : BindStatus := .idle
  deriving DecidableEq, Repr, Inhabited

/-- a programmable counter (R319). -/
structure Counter where
  /-- R318: counter number -/
  num : Nat := 0
  /-- R319: value -/
  value : BitVec 48 := 0
  /-- R319: OVF -/
  ovf : Bool := false
  /-- R319: ENABLE -/
  enable : Bool := false
  /-- R319: EVENT -/
  event : Nat := 0
  /-- R320: QUAL_KIND -/
  qualKind : Nat := 0
  /-- R320: QUAL_VALUE -/
  qualValue : Nat := 0
  deriving DecidableEq, Repr, Inhabited

/-- counters, slot accounting, histograms, trace and OBS (R317 to R338). -/
structure Obs where
  /-- R318: programmable counters that differ from their reset -/
  ctrs : List Counter := []
  /-- R323: frozen groups, 1-19 -/
  frozen : List Nat := []
  /-- R322: DROPPED -/
  dropped : Nat := 0
  /-- R318: core-cycle counter -/
  cycles : Nat := 0
  /-- R328: derived unit in histogram mode -/
  histMode : Bool := false
  /-- R329: bins not zero: port, class, bin, count -/
  hist : List (Nat × Nat × Nat × Nat) := []
  /-- Table OBS-3: slot mode: slice, partition, class, cycles -/
  slotPart : List (Nat × Nat × Nat × Nat) := []
  /-- Table OBS-3: slot mode: slice, subclass, cycles -/
  slotSub : List (Nat × Nat × Nat) := []
  /-- R333: trace started -/
  running : Bool := false
  /-- R331: whole records in the trace FIFO, head first -/
  trace : List (List (BitVec 64)) := []
  /-- R335: words of the record being read -/
  readLeft : List (BitVec 64) := []
  /-- R334: pending loss count -/
  lossPending : Nat := 0
  /-- R333: match count of each filter -/
  matched : Vector Nat 4 := Vector.replicate 4 0
  /-- R22, R335: records at the tail of the trace FIFO that the crossing does not show to the consumer yet -/
  traceHidden : Nat := 0
  /-- R22, R335: words read that the crossing does not show to the producers as free yet -/
  traceFreed : Nat := 0
  /-- R334: records held by stalled producers, oldest first -/
  stalled : List (List (BitVec 64)) := []
  /-- R337: SYNC words still to send at the start -/
  obsSync : Nat := 0
  /-- R337: words since the last SYNC -/
  obsSince : Nat := 0
  /-- R337: words of the record being sent on OBS -/
  obsRec : List (BitVec 64) := []
  /-- R337: that record comes from the trace FIFO -/
  obsFromTrace : Bool := false
  /-- R338: snapshot sequence number -/
  snapSeq : Nat := 0
  /-- R338: SNAPSHOT records to send -/
  snapQ : List (List (BitVec 64)) := []
  deriving DecidableEq, Repr, Inhabited

/-- a node of the gating tree (Table CLK-4). -/
structure GateNode where
  /-- Table CLK-4: LEVEL -/
  level : Nat := 0
  /-- Table CLK-4: INDEX -/
  index : Nat := 0
  /-- Table CLK-4: SUB -/
  sub : Nat := 0
  /-- R350: GATE_REQ -/
  req : Bool := true
  /-- R350: clock stopped -/
  stopped : Bool := false
  deriving DecidableEq, Repr, Inhabited

/-- clocks, resets and start-up (R339 to R364). -/
structure Clk where
  /-- R348: core cycles (1/2 ns) since PWRGOOD -/
  half : Nat := 0
  /-- R361: the count since PWRGOOD is valid -/
  halfValid : Bool := true
  /-- R340: PLLs locked: 0 Core, 1-4 HBM, 5 PCIe, 6 Spindle, 7 Trace, 8+k port k -/
  pllLocked : List Nat := []
  /-- R341: fallback oscillator qualified -/
  oscQualified : Bool := true
  /-- R342: clock monitor enabled -/
  monitor : Bool := true
  /-- R342: consecutive good windows, at most 8 -/
  goodWindows : Nat := 8
  /-- R342: REFCLK qualified -/
  refQualified : Bool := true
  /-- R343: REFCLK_GAP -/
  gap : Bool := false
  /-- R345: fallback oscillator available -/
  fallbackOk : Bool := true
  /-- R345: consecutive bad reciprocal windows -/
  fbBad : Nat := 0
  /-- R345: consecutive good reciprocal windows -/
  fbGood : Nat := 0
  /-- R346: source of the always-on domain -/
  aon : AonSource := .reference
  /-- R340: source of the Spindle domain: bypass or PLL -/
  spindle : AonSource := .fallback
  /-- R340: source of the trace domain -/
  trace : AonSource := .fallback
  /-- R346: domains with a switch in progress: 0 always-on, 1 Spindle, 2 trace -/
  switching : List Nat := []
  /-- R348: domains with a second switch waiting -/
  switchWait : List Nat := []
  /-- R347: SWITCH_FORCED count -/
  forced : Nat := 0
  /-- R349: nodes whose GATE_REQ is set -/
  gates : List GateNode := []
  /-- R352: PWRGOOD -/
  pwrgood : Bool := true
  /-- R352: RESET_N (true deasserted) -/
  resetN : Bool := true
  /-- R352: PERST_N (true deasserted) -/
  perstN : Bool := true
  /-- R352: a reset that holds -/
  reset : Option ResetType := none
  /-- R354: type of the last reset -/
  lastReset : ResetType := .pin
  /-- R354: CLEAN latch -/
  clean : Bool := true
  /-- R354: ns since PWRGOOD at the last reset -/
  resetAt : Nat := 0
  /-- Table HOST-5: GSTATUS.STEP -/
  step : Nat := 2
  /-- R355: steps of Table CLK-5 that have ended -/
  stepDone : List Nat := [1, 2]
  /-- Table HOST-5: step that failed -/
  failedStep : Option Nat := none
  /-- R204: STRAP_INVALID -/
  strapInvalid : Bool := false
  /-- Table HOST-5: HBM_TRAIN_FAIL -/
  hbmFail : BitVec 4 := 0
  /-- R370: LEDGER_MOUNT_FAIL -/
  ledgerFail : Bool := false
  /-- Table HOST-5: SELFTEST_FAIL -/
  selftestFail : Bool := false
  /-- Table HOST-5: FW_READY -/
  fwReady : Bool := false
  /-- R357: HOME_READY_OWN -/
  homeOwn : Bool := false
  /-- Table HOST-5: HOME_READY_LINE as driven by the other devices -/
  homeLine : Bool := false
  /-- R422: THERM_N asserted -/
  thermN : Bool := false
  /-- R417: AVS request in mV -/
  avs : Nat := 750
  /-- R373: junction has been below 45 C since the last thermal-cycle count -/
  hot : Bool := false
  deriving DecidableEq, Repr, Inhabited

/-- the calendar (R378). -/
structure Calendar where
  /-- R378: UTC seconds -/
  sec : Nat := 0
  /-- R378: nanoseconds -/
  ns : Nat := 0
  /-- R378: VALID -/
  valid : Bool := false
  /-- R378: core cycles since the last always-on tick -/
  sub : Nat := 0
  deriving DecidableEq, Repr, Inhabited

/-- a ledger record (Table LED-2). -/
structure LedRec where
  /-- Table LED-2: LSEQ -/
  lseq : Nat := 0
  /-- Table LED-4: CLASS -/
  cls : Nat := 0
  /-- Table LED-2: TIME_RELATIVE -/
  relative : Bool := false
  /-- Table LED-2: CHECKPOINT -/
  checkpoint : Bool := false
  /-- Table LED-2: TIME -/
  time : Nat := 0
  /-- Table LED-2: BODY -/
  body : List Byte := []
  /-- R367: log slot -/
  slot : Nat := 16
  deriving DecidableEq, Repr, Inhabited

/-- a ledger root copy (R369). -/
structure Root where
  /-- R369: ROOT_SEQ -/
  seq : Nat := 0
  /-- R369: CKPT_SLOT -/
  ckptSlot : Nat := 16
  /-- R369: CKPT_LSEQ -/
  ckptLseq : Nat := 0
  /-- R369: SVN_MIN -/
  svnMin : Nat := 0
  /-- R369: BOOT_PREF -/
  bootPref : Nat := 255
  /-- R369: POOL_GEN -/
  poolGen : Nat := 0
  /-- R369: CHECK holds -/
  valid : Bool := true
  deriving DecidableEq, Repr, Inhabited

/-- a stalagmite counter (R373). -/
structure Stal where
  /-- Table LED-3: ID -/
  id : Nat := 0
  /-- Table LED-3: index -/
  index : Nat := 0
  /-- R373: value in the always-on island -/
  value : Nat := 0
  /-- R371: value the ledger holds -/
  written : Nat := 0
  deriving DecidableEq, Repr, Inhabited

/-- an aging monitor (R376). -/
structure Aging where
  /-- R376: baseline ratio, in 1e-6 -/
  baseline : Nat := 1000000
  /-- R377: latest margin code -/
  margin : Nat := 1000
  /-- Table LED-5: lowest margin code -/
  lowest : Nat := 1000
  /-- Table LED-5: POWER_ON_TIME at the latest sample -/
  sampledAt : Nat := 0
  deriving DecidableEq, Repr, Inhabited

/-- the ledger MRAM (R365 to R379). -/
structure Led where
  /-- R369: root copies -/
  roots : Vector Root 3 := Vector.replicate 3 {}
  /-- R372: reset marker VALUE -/
  marker : Nat := 0
  /-- R372: ns since PWRGOOD at the write -/
  markerAt : Nat := 0
  /-- R366: log records, newest first -/
  log : List LedRec := []
  /-- R367: slot of the head -/
  head : Nat := 16
  /-- R366: next LSEQ -/
  lseq : Nat := 0
  /-- R368: records since the start of the previous checkpoint -/
  sinceCkpt : Nat := 0
  /-- R373: stalagmite counters that have counted -/
  stal : List Stal := []
  /-- R376: aging monitors -/
  aging : Vector Aging 32 := Vector.replicate 32 {}
  /-- Table LED-5: containment records, newest first, at most 64: code, SALVAGE_OK, domain time, ns since PWRGOOD, POWER_ON_TIME -/
  containments : List (Nat × Bool × Nat × Nat × Nat) := []
  /-- Table LED-5: retirements in ledger order: kind and five arguments -/
  retirements : List (Nat × Nat × Nat × Nat × Nat × Nat) := []
  /-- Table LED-5: last-known calendar -/
  lastCal : Nat × Nat := (0, 0)
  /-- R181: pool generation in force -/
  poolGen : Nat := 0
  /-- R294: decisions not fully acknowledged: COMMIT_ID, commit, devices that acknowledged -/
  commits : List (Nat × Bool × List Nat) := []
  /-- R370: mounted since reset -/
  mounted : Bool := false
  /-- R342, R371, R387: records that wait until Spindle can write them: class and body -/
  held : List (Nat × List Byte) := []
  deriving DecidableEq, Repr, Inhabited

/-- the header of a firmware image in a slot and what its checks find (R385, R386). -/
structure FwImage where
  /-- Table LED-8: FW_VERSION -/
  version : Nat := 1
  /-- Table LED-8: SVN -/
  svn : Nat := 1
  /-- Table LED-8: CODE_PAGES -/
  pages : Nat := 1
  /-- Table LED-8: RESIDENT_PAGES -/
  resident : Nat := 1
  /-- Table LED-8: IMAGE_LEN -/
  len : Nat := 8352
  /-- Table LED-8: LIVE_ABI -/
  liveAbi : Nat := 0
  /-- Table LED-8: LIVE_CAPABLE -/
  live : Bool := true
  /-- R386: check 1: MAGIC -/
  magicOk : Bool := true
  /-- R386: check 2 -/
  keyOk : Bool := true
  /-- R386: check 4 -/
  digestOk : Bool := true
  /-- R386: check 5 -/
  sigOk : Bool := true
  /-- R386: flash reads without error -/
  readOk : Bool := true
  deriving DecidableEq, Repr, Inhabited

/-- an SPDM session (R382). -/
structure SpdmSession where
  /-- R382: session identifier -/
  id : Nat := 0
  /-- R382: transport instance: 0 DOE, 1 MCTP, 2+k the DOE of port k -/
  inst : Nat := 0
  /-- R382: FINISH received -/
  established : Bool := false
  deriving DecidableEq, Repr, Inhabited

/-- identity, SPDM and firmware (R380 to R392). -/
structure Sec where
  /-- R385: image in flash slot A -/
  slotA : Option FwImage := some {}
  /-- R385: image in flash slot B -/
  slotB : Option FwImage := none
  /-- Table HOST-5: ACTIVE_SLOT -/
  active : Nat := 0
  /-- R402: running image -/
  running : Option FwImage := none
  /-- R390: chunks of the staging buffer, oldest first -/
  staged : List (List Byte) := []
  /-- R312: bytes staged -/
  stagedLen : Nat := 0
  /-- R235: a staging line is uncorrectable: the image fails verification -/
  stagedBad : Bool := false
  /-- R382: transport instances that have answered GET_VERSION -/
  connected : List Nat := []
  /-- R382: transport instances that have negotiated algorithms -/
  negotiated : List Nat := []
  /-- R382: sessions, at most 4 per transport instance -/
  sessions : List SpdmSession := []
  /-- R382: next session identifier -/
  nextSession : Nat := 1
  deriving DecidableEq, Repr, Inhabited

/-- what fuses hold (Table HOST-5, R380). -/
structure Fuses where
  /-- R1: variant: PNH6424-144, else PNH6424-096 -/
  is144 : Bool := true
  /-- R424: STEPPING -/
  stepping : Nat := 33
  /-- R380: SERIAL -/
  serial : List Byte := []
  /-- R417: fused AVS target in mV -/
  avsTarget : Nat := 750
  deriving DecidableEq, Repr, Inhabited

/-- an MSI-X vector (R403). -/
structure Vector32 where
  /-- R403: masked in the table -/
  masked : Bool := true
  /-- R403: pending bit -/
  pending : Bool := false
  /-- R403: event held while MSI-X is disabled or in D3hot -/
  held : Bool := false
  deriving DecidableEq, Repr, Inhabited

/-- PCIe endpoint, DOE, SMBus and JTAG (R396 to R409). -/
structure Hst where
  /-- R403: MSI-X enabled -/
  msixEnable : Bool := false
  /-- R403: MSI-X vectors -/
  vectors : Vector Vector32 32 := Vector.replicate 32 {}
  /-- Table HOST-4: MSI-X table, bytes -/
  table : Memory := []
  /-- R397: power state D3hot -/
  d3hot : Bool := false
  /-- R397: Bus Master Enable -/
  busMaster : Bool := false
  /-- R355: endpoint configuration-ready -/
  cfgReady : Bool := false
  /-- R396: rate of the PCIe link: 0 down, 1 to 6 for 2.5, 5, 8, 16, 32 and 64 GT/s -/
  pcieRate : Nat := 0
  /-- R396: width of the PCIe link in lanes; 0 down -/
  pcieWidth : Nat := 0
  /-- R396: the PCIe link runs in FLIT mode -/
  pcieFlit : Bool := false
  /-- R396: the PCIe link trained with its lanes reversed -/
  pcieReversed : Bool := false
  /-- R404: DOE data object in progress, bytes received -/
  doeObject : Option Nat := none
  /-- R404: DOE Error -/
  doeError : Bool := false
  /-- R406: MCTP endpoint ID -/
  eid : Nat := 0
  /-- R406: SMBus address -/
  smbAddr : Nat := 100
  /-- R408: TAP instruction register -/
  tapIr : BitVec 4 := 2
  /-- R409: boundary register -/
  boundary : List Bool := []
  deriving DecidableEq, Repr, Inhabited

/-- What the device sends outside in one step. -/
inductive Output where
  /-- a flit placed on a port's lanes: its bytes (R34 to R37), and for each active lane, in logical order, its physical number and the
  symbols sent on it, scrambled and coded (R26, R27) -/
  | flit (port : Fin 24) (bytes : List Byte) (lanes : List (Nat × List Int))
  /-- training sets sent in a state of training: TYPE and the fields of R30 as bytes, per lane -/
  | ts (port : Fin 24) (bytes : List Byte)
  /-- a CXL.mem message to a host or expander: opcode name, tag, byte address, data, poison, and MetaValue -/
  | cxl (port : Fin 24) (op : String) (tag : Nat) (addr : Nat) (data : Line) (poison : Bool) (value : Nat)
  /-- a response of the CXL mailbox of a port: return code and payload -/
  | cxlMailbox (port : Fin 24) (code : Nat) (payload : List Byte)
  /-- the response message of the secondary mailbox (R276): the response area -/
  | secondary (bytes : List Byte)
  /-- an SPDM response by a transport instance -/
  | spdm (inst : Nat) (bytes : List Byte)
  /-- an MCTP control response: completion code and bytes -/
  | mctp (bytes : List Byte)
  /-- an MSI-X message of a vector (R403) -/
  | msix (vector : Fin 32)
  /-- the data returned for a register read (R281, R335, R405) -/
  | read (value : Nat)
  /-- a ring frame: TYPE, DST, SRC, HOPS, payload and CRC (Table DOM-2) -/
  | ring (typ : Nat) (dst : Nat) (src : Nat) (hops : Nat) (payload : List Byte) (crc : Nat)
  /-- a word on the OBS port (R336) -/
  | obs (word : Nat)
  /-- bits shifted out at TDO, least significant first (R408) -/
  | tdo (bits : List Bool)
  /-- pins driven from the boundary register (R409) -/
  | pins (bits : List Bool)
  deriving DecidableEq, Repr, Inhabited

/-- the machine. -/
structure State where
  /-- the block's queue: commands waiting, first in first out -/
  pending : List Instr := []
  /-- MODEL: what the device sent outside in the last step; the model's own field -/
  out : List Output := []
  /-- MODEL: counter of the free values; the model's own field -/
  fresh : Nat := 0
  /-- R1: fuses -/
  fuses : Fuses := {}
  /-- R20: ports P00 to P23 -/
  ports : Vector Port 24 := Vector.replicate 24 {}
  /-- R15: home slices -/
  slices : Vector Slice 16 := Vector.replicate 16 {}
  /-- R218: binding table -/
  binds : Vector Binding 256 := Vector.replicate 256 {}
  /-- R17: HBM -/
  hbm : Hbm := {}
  /-- R164: backing memory -/
  pool : Pool := {}
  /-- R134: disown mask -/
  disown : BitVec 64 := 0
  /-- R243: protection -/
  prot : Prot := {}
  /-- R265: containment -/
  cons : Cons := {}
  /-- R270: management -/
  mgmt : Mgmt := {}
  /-- R204: domain -/
  dom : Dom := {}
  /-- R317: observation -/
  obs : Obs := {}
  /-- R339: clocks and resets -/
  clk : Clk := {}
  /-- R378: calendar -/
  cal : Calendar := {}
  /-- R365: ledger -/
  led : Led := {}
  /-- R380: identity and firmware -/
  sec : Sec := {}
  /-- R396: host interface -/
  hst : Hst := {}
  deriving DecidableEq, Repr, Inhabited

/-- The state right after reset: every field at the value the spec gives, or at the value assumption 1 names; the
queue is empty. -/
def State.reset : State := {}

end Sys2Proof.Machine
end

