-- ==== Sys2Proof/Machine/Operands.lean ====
section
/-! DEFINITION. The encodings of chapter 3 (messages, header slots, data slots, field rules, atomics) and the address
arithmetic of R14, R19, R113, R137, R138 and R167. -/

namespace Sys2Proof.Machine
open Sys2Proof

/-! ## Opcodes (Table MSG-1) -/

/-- R58: the opcode of a message. -/
def opCode : Op → Nat
  | .rdShared => 0x10 | .rdOwn => 0x11 | .rdOnce => 0x12 | .upgrade => 0x13 | .flushLine => 0x14
  | .wrFull => 0x18 | .wrPart => 0x19 | .atomic => 0x1A
  | .evictClean => 0x20 | .wbDirty => 0x28
  | .snpInv => 0x30 | .snpShare => 0x31 | .snpRecall => 0x32
  | .rspI => 0x40 | .rspS => 0x41 | .rspWbPending => 0x42 | .rspIData => 0x48 | .rspSData => 0x49
  | .grantE => 0x50 | .wrAck => 0x51 | .wbAck => 0x52 | .cmpErr => 0x53
  | .dataS => 0x58 | .dataE => 0x59 | .dataI => 0x5A | .atomicData => 0x5B
  | .memRd => 0x60 | .memZero => 0x61 | .memWrAck => 0x62 | .memWr => 0x68 | .memRdData => 0x69

/-- Every message, in opcode order. -/
def allOps : List Op :=
  [.rdShared, .rdOwn, .rdOnce, .upgrade, .flushLine, .wrFull, .wrPart, .atomic, .evictClean, .wbDirty, .snpInv,
   .snpShare, .snpRecall, .rspI, .rspS, .rspWbPending, .rspIData, .rspSData, .grantE, .wrAck, .wbAck, .cmpErr,
   .dataS, .dataE, .dataI, .atomicData, .memRd, .memZero, .memWrAck, .memWr, .memRdData]

/-- The message of an opcode; none for NOP, link control and unassigned opcodes. -/
def opOfCode (c : Nat) : Option Op := allOps.find? fun o => opCode o == c

/-- R58: bit 3 of the opcode, set exactly when a 64 B payload follows. -/
def opHasData (o : Op) : Bool := bitOf (opCode o) 3

/-- R47: credits a message consumes. -/
def opSlots (o : Op) : Nat := if opHasData o then 5 else 1

/-- The virtual channels, numbered as CREDIT_AUDIT byte 1 (Table LNK-9): 0 REQ, 1 WB, 2 SNP, 3 RSP, 4 CMP, 5 MEM. -/
def opVc (o : Op) : Nat := opCode o / 16 - 1

/-- The payload is in Mask form (Table MSG-1). -/
def opMaskForm (o : Op) : Bool := o == .wrPart || o == .atomic

/-! ## Header slot (Table MSG-2) and data slots (R64) -/

/-- R60: the 144 bits of a header slot as a number. -/
def hdrNat (o : Op) (h : Hdr) : Nat :=
  opCode o + h.src * 2 ^ 8 + h.dest * 2 ^ 16 + h.tag * 2 ^ 24 + h.laddr * 2 ^ 36 + h.attr.toNat * 2 ^ 82 +
  h.aop * 2 ^ 90 + h.size * 2 ^ 98 + h.ts * 2 ^ 106

/-- R60: the 18 bytes of a header slot. -/
def encodeHdr (o : Op) (h : Hdr) : List Byte := leBytes 18 (hdrNat o h)

/-- R60: the fields of a header slot held as a number; the reserved bits are ignored (R62). -/
def hdrOfNat (x : Nat) : Hdr :=
  { src := bits x 15 8, dest := bits x 23 16, tag := bits x 35 24, laddr := bits x 81 36,
    attr := BitVec.ofNat 8 (bits x 89 82), aop := bits x 97 90, size := bits x 105 98, ts := bits x 137 106 }

/-- R60: the fields of a header slot. -/
def decodeHdr (slot : List Byte) : Hdr := hdrOfNat (ofLe (slot.take 18))

/-- R74: the 144 bits of a memory header slot as a number: OPCODE, TAG, MADDR, MATTR, CHK_HI. -/
def memHdrNat (o : Op) (tag maddr mattr chkHi : Nat) : Nat :=
  opCode o + tag * 2 ^ 8 + maddr * 2 ^ 20 + mattr * 2 ^ 66 + chkHi * 2 ^ 74

/-- R74: the 18 bytes of a memory header slot. -/
def encodeMemHdr (o : Op) (tag maddr mattr chkHi : Nat) : List Byte := leBytes 18 (memHdrNat o tag maddr mattr chkHi)

/-- R64: the four data slots of a payload and its META. -/
def encodeData (d : Line) (metaw : Nat) : List (List Byte) :=
  (List.range 4).map fun k =>
    ((List.range 16).map fun i => Line.byte d (16 * k + i)) ++ leBytes 2 (bits metaw (16 * k + 15) (16 * k))

/-- R64: the line and META of four data slots. -/
def decodeData (slots : List (List Byte)) : Line × Nat :=
  (Line.ofBytes (slots.flatMap (·.take 16)), ofLe (slots.flatMap fun s => (s.drop 16).take 2))

/-- Table MSG-12: the fields of a memory header slot with its data slots. -/
def decodeMem (hdr : List Byte) (slots : List (List Byte)) : MemIn :=
  let x := ofLe (hdr.take 18)
  let dm := decodeData slots
  { tag := bits x 19 8, maddr := bits x 65 20, mattr := BitVec.ofNat 8 (bits x 73 66),
    chkHi := BitVec.ofNat 64 (bits x 137 74), data := dm.1, metaw := BitVec.ofNat 64 dm.2 }

/-! ## Attributes (Table MSG-3) -/

/-- E_ALLOWED. -/
def attrE (a : BitVec 8) : Bool := a.getLsbD 0
/-- NON_TEMPORAL. -/
def attrNt (a : BitVec 8) : Bool := a.getLsbD 1
/-- POISON. -/
def attrPoison (a : BitVec 8) : Bool := a.getLsbD 2
/-- TS_PRESENT. -/
def attrTs (a : BitVec 8) : Bool := a.getLsbD 3

/-- R65: a payload is poisoned by ATTR.POISON, or by META.POISON in Line form. -/
def payloadPoison (o : Op) (a : BitVec 8) (metaw : Mask) : Bool :=
  opHasData o && (attrPoison a || (!opMaskForm o && metaw.getLsbD 0))

/-! ## Field rules (R67, Table MSG-7) -/

/-- R71: the offset of the single run of 2^size enabled bytes, aligned to its length; none when BE is no such run. -/
def atomicOffset (size : Nat) (be : Mask) : Option Nat :=
  if size > 4 then none
  else (List.range 64).find? fun o => o % 2 ^ size == 0 && be.toNat == (2 ^ 2 ^ size - 1) * 2 ^ o

/-- R67: ATTR bits a message may carry. -/
def attrPermitted : Op → BitVec 8
  | .rdShared => 0x0B
  | .rdOwn | .rdOnce | .upgrade | .flushLine | .atomic => 0x0A
  | .wrFull | .wrPart => 0x0E
  | .wbDirty | .rspIData | .rspSData => 0x0C
  | .dataS | .dataE | .dataI => 0x0C
  | _ => 0x08

/-- R67: the fields of a message from an agent hold values Table MSG-7 permits. E_ALLOWED and POISON are the only
attribute bits whose place is checked. -/
def fieldsOk (o : Op) (h : Hdr) (be : Mask) : Bool :=
  (!(attrE h.attr) || (attrPermitted o).getLsbD 0) && (!(attrPoison h.attr) || (attrPermitted o).getLsbD 2) &&
  (match o with
   | .atomic => decide (1 ≤ h.aop ∧ h.aop ≤ 10) && (atomicOffset h.size be).isSome
   | .wrPart => h.aop == 0 && h.size == 6 && be != 0
   | _ => h.aop == 0 && h.size == (if opHasData o then 6 else 0))

/-- R59: messages an agent sends to the home. -/
def opFromAgent (o : Op) : Bool :=
  let c := opCode o / 16
  c == 1 || c == 2 || c == 4

/-- R66: requests a non-caching agent may send. -/
def opNonCaching (o : Op) : Bool :=
  o == .rdOnce || o == .wrFull || o == .wrPart || o == .atomic || o == .flushLine

/-- Table MSG-9: responses permitted to a snoop. -/
def rspPermitted (snp rsp : Op) : Bool :=
  match rsp with
  | .rspI | .rspIData | .rspWbPending => true
  | .rspS | .rspSData => snp == .snpShare
  | _ => false

/-! ## Merging and home atomics (R66, Table MSG-10) -/

/-- The bits of a line that a byte-enable mask names. -/
def beBits (be : Mask) : Line :=
  Line.ofBytes ((List.range 64).map fun i => if be.getLsbD i then 0xFF else 0)

/-- R66: the enabled bytes of new over old. -/
def mergeLine (old new : Line) (be : Mask) : Line := (old &&& ~~~ (beBits be)) ||| (new &&& beBits be)

/-- 2^size bytes of a line at offset o, as a number. -/
def operandAt (l : Line) (o size : Nat) : Nat := (l.toNat >>> (8 * o)) % 2 ^ (8 * 2 ^ size)

/-- The line holding a value of 2^size bytes at offset o, zeros elsewhere. -/
def operandLine (o size v : Nat) : Line := BitVec.ofNat 512 ((v % 2 ^ (8 * 2 ^ size)) <<< (8 * o))

/-- A number of w bits as a two's complement integer. -/
def asSigned (w v : Nat) : Int := if v < 2 ^ (w - 1) then v else (v : Int) - 2 ^ w

/-- Table MSG-10: the new value of an atomic of w bits from the old value, the operand and the compare value. -/
def atomicNew (aop w old opnd cmp : Nat) : Nat :=
  match aop with
  | 1 => (old + opnd) % 2 ^ w
  | 2 => opnd
  | 3 => if old = cmp then opnd else old
  | 4 => if asSigned w opnd < asSigned w old then opnd else old
  | 5 => if asSigned w old < asSigned w opnd then opnd else old
  | 6 => min old opnd
  | 7 => max old opnd
  | 8 => old &&& opnd
  | 9 => old ||| opnd
  | 10 => old ^^^ opnd
  | _ => old

/-- R71, R98: a home atomic on a line: the line afterwards, and the line of ATOMIC_DATA. -/
def atomicLine (aop size : Nat) (be : Mask) (payload old : Line) : Line × Line :=
  match atomicOffset size be with
  | none => (old, 0)
  | some o =>
    let ov := operandAt old o size
    let nv := atomicNew aop (8 * 2 ^ size) ov (operandAt payload o size) (operandAt payload (o ^^^ 32) size)
    (mergeLine old (operandLine o size nv) be, operandLine o size ov)

/-! ## Addresses -/

/-- The exclusive OR of n 4-bit groups. -/
def foldNibbles : Nat → Nat → Nat
  | 0, _ => 0
  | n + 1, x => (x % 16) ^^^ foldNibbles n (x >>> 4)

theorem xor_lt_16 (a b : Nat) (ha : a < 16) (hb : b < 16) : a ^^^ b < 16 :=
  Nat.xor_lt_two_pow (n := 4) ha hb

/-- The fold of 4-bit groups is a slice number. -/
theorem foldNibbles_lt (n x : Nat) : foldNibbles n x < 16 := by
  induction n generalizing x with
  | zero => simp [foldNibbles]
  | succ n ih => exact xor_lt_16 _ _ (Nat.mod_lt _ (by decide)) (ih _)

/-- R14: the slice that owns a hank. -/
def sliceOfHank (h : Nat) : Fin 16 := ⟨foldNibbles 10 h, foldNibbles_lt 10 h⟩

/-- The hank of a line: A[51:12]. -/
def hankOf (laddr : Nat) : Nat := laddr / 64

/-- The line number within the hank: A[11:6]. -/
def lineIn (laddr : Nat) : Nat := laddr % 64

/-- R14: the slice that owns a line. -/
def sliceOf (laddr : Nat) : Fin 16 := sliceOfHank (hankOf laddr)

/-- R113: TAG. -/
def dirTag (laddr : Nat) : Nat := laddr >>> 21

/-- R113: SIDX. -/
def sidx (laddr : Nat) : Nat := (laddr % 2 ^ 21) ^^^ (bits laddr 41 21) ^^^ (bits laddr 45 42)

/-- R113: CIDX. -/
def cidx (laddr : Nat) : Nat := sidx laddr % 4096

/-- R113: SSET_HI. -/
def ssetHi (laddr : Nat) : Nat := sidx laddr / 4096

/-- R113: the line a TAG and a SIDX name. -/
def laddrOf (tag si : Nat) : Nat := (si ^^^ (tag % 2 ^ 21) ^^^ (tag >>> 21)) + tag * 2 ^ 21

/-- R113: the HBM address of way w of a store set. -/
def storeAddr (k : Fin 16) (si w : Nat) : Nat := (k.val * 2 ^ 21 + si) * 256 + (w / 4) * 64 + (w % 4) * 16

/-- R17: base of the cache data region. -/
def cacheBase : Nat := 0x2C0000000

/-- R19: the stack of a device HBM address. -/
def stackOf (ha : Nat) : Nat := let b := ha >>> 12; (b % 4) ^^^ (bits b 9 8)

/-- R19: the pseudo-channel within the stack. -/
def pcOf (ha : Nat) : Nat := let b := ha >>> 12; (bits b 5 2) ^^^ (bits b 13 10)

/-- R138: NSID of the variant. -/
def nsid (is144 : Bool) : Nat := if is144 then 3 else 2

/-- R138: SID, BA, BG, ROW and column of a device HBM address. -/
def bankOf (is144 : Bool) (ha : Nat) : Nat × Nat × Nat × Nat × Nat :=
  let q := bits (ha >>> 12) 25 6
  let j := bits ha 11 6
  let u := q / nsid is144
  (q % nsid is144, u % 4, (j % 4) ^^^ (bits u 3 2), u / 4, j / 4)

/-- Table MSC-1: sets per slice. -/
def setsPerSlice (is144 : Bool) : Nat := if is144 then 122880 else 73728

/-- Table MSC-2: address of a hank-tag set of a slice, by its local set. -/
def tagAddr (is144 : Bool) (k : Fin 16) (ls : Nat) : Nat := 0x200000000 + (k.val * setsPerSlice is144 + ls) * 512

/-- Table MSC-1: hank frames of the device. -/
def hankCount (is144 : Bool) : Nat := if is144 then 31457280 else 18874368

/-- R137: the local set of a hank. -/
def localSet (is144 : Bool) (h : Nat) : Nat :=
  let g := h >>> 4
  (g % (if is144 then 15 else 9)) * 8192 + ((g % 2 ^ 13) ^^^ (bits g 25 13) ^^^ (bits g 35 26))

/-- R137: the frame of way w of a local set of a slice. -/
def frameOf (is144 : Bool) (k : Fin 16) (ls w : Nat) : Nat := (k.val * setsPerSlice is144 + ls) * 16 + w

/-- R137: the slice that owns a frame. -/
def sliceOfFrame (is144 : Bool) (f : Nat) : Nat := f / 16 / setsPerSlice is144

/-- R137: the local set of a frame. -/
def setOfFrame (is144 : Bool) (f : Nat) : Nat := f / 16 % setsPerSlice is144

/-- R137: the HBM address of line j of a frame. -/
def frameLineAddr (f j : Nat) : Nat := cacheBase + f * 4096 + j * 64

/-- R167: MADDR of line j of page g of a local extent. -/
def maddrOf (e g j : Nat) : Nat := e * 32768 + g * 64 + j

end Sys2Proof.Machine
end

