-- ==== Sys2Proof/Machine/Ops.lean ====
section
/-! DEFINITION. The named operations every family of commands shares: reading and changing a port, a slice, the
configuration in force; counting events, trace records, error records, notifications; watermarks; entering
containment; and `runCmd`, in which every command runs. -/

namespace Sys2Proof.Machine
open Sys2Proof

/-! ## Ports and slices -/

/-- The state of a port. -/
def State.port (s : State) (p : Fin 24) : Port := s.ports[p]

/-- One port changed. -/
def State.updPort (s : State) (p : Fin 24) (f : Port → Port) : State := { s with ports := s.ports.set p (f s.ports[p]) }

/-- The state of a slice. -/
def State.slc (s : State) (k : Fin 16) : Slice := s.slices[k]

/-- R86: entries of a pool that are open: opened, or closing. -/
def poolOpen (sl : Slice) (p : TxnPool) : Nat :=
  sl.txns.countP fun t => t.pool == p && (t.status == .opened || t.status == .closing)

/-- R86: entries of a pool that wait: on a chain, pending, or set-blocked (R427). -/
def poolWait (sl : Slice) (p : TxnPool) : Nat :=
  sl.txns.countP fun t => t.pool == p && !(t.status == .opened || t.status == .closing)

/-- R107: snoops of a slice that are outstanding. -/
def snoopsOut (sl : Slice) : Nat := (sl.txns.map fun t => t.snoops.countP fun n => !n.answered).sum

/-- R257: the occupancy counts a slice keeps of its own resources, frames apart. -/
def occupancy (sl : Slice) : Shadow :=
  { genOpen := poolOpen sl .general, genWait := poolWait sl .general, wbOpen := poolOpen sl .writeBack + poolWait sl .writeBack,
    recOpen := poolOpen sl .recall, wbuf := sl.wbuf.length, slots := sl.slots.length, snoopsOut := snoopsOut sl,
    sbq := sl.sbq.length, dirValid := sl.dcache.length, dirDirty := sl.dcache.countP (·.dirty),
    stS := sl.dstore.countP (·.state == .S), stX := sl.dstore.countP (·.state == .X), sat := sl.sat.length }

/-- R257: shadow counts advanced by the change between two occupancies, frame counts kept. -/
def shadowAdvance (sh old new : Shadow) : Shadow :=
  { sh with
    genOpen := sh.genOpen + new.genOpen - old.genOpen, genWait := sh.genWait + new.genWait - old.genWait,
    wbOpen := sh.wbOpen + new.wbOpen - old.wbOpen, recOpen := sh.recOpen + new.recOpen - old.recOpen,
    wbuf := sh.wbuf + new.wbuf - old.wbuf, slots := sh.slots + new.slots - old.slots,
    snoopsOut := sh.snoopsOut + new.snoopsOut - old.snoopsOut, sbq := sh.sbq + new.sbq - old.sbq,
    dirValid := sh.dirValid + new.dirValid - old.dirValid, dirDirty := sh.dirDirty + new.dirDirty - old.dirDirty,
    stS := sh.stS + new.stS - old.stS, stX := sh.stX + new.stX - old.stX, sat := sh.sat + new.sat - old.sat }

/-- One slice changed; its auditor's shadow counts follow the change (R257). -/
def State.updSlc (s : State) (k : Fin 16) (f : Slice → Slice) : State :=
  let old := s.slices[k]
  let new := f old
  { s with slices := s.slices.set k { new with shadow := shadowAdvance old.shadow (occupancy old) (occupancy new) } }

/-- Something sent outside the device. -/
def State.emit (s : State) (o : Output) : State := { s with out := s.out ++ [o] }

/-- A list with the first element that satisfies p changed. -/
def updFirst {α : Type} (p : α → Bool) (f : α → α) : List α → List α
  | [] => []
  | x :: xs => if p x then f x :: xs else x :: updFirst p f xs

/-- One element removed: the first that equals x. -/
def removeFirst {α : Type} [DecidableEq α] (x : α) : List α → List α
  | [] => []
  | y :: ys => if y = x then ys else y :: removeFirst x ys

/-- A list with the first element that satisfies p replaced, or x added at the end when none does. -/
def upsert {α : Type} (p : α → Bool) (x : α) : List α → List α
  | [] => [x]
  | y :: ys => if p y then x :: ys else y :: upsert p x ys

/-! ## Time -/

/-- ns since PWRGOOD (0 while the count is not valid, R361). -/
def nowNs (s : State) : Nat := if s.clk.halfValid then s.clk.half / 2 else Config.invalidTime s.clk.half

/-- R211: domain time in ns. -/
def domNs (s : State) : Nat := s.dom.time / 2

/-! ## Configuration in force (Table CMD-11) -/

/-- Codes of the configuration keys (Table CMD-11). -/
abbrev keyWmWb : Nat := 0x00020001
abbrev keyWmTxn : Nat := 0x00020002
abbrev keyWmSbq : Nat := 0x00020003
abbrev keyWmPool : Nat := 0x00020004
abbrev keyPersonality : Nat := 0x00030001
abbrev keyGenCap : Nat := 0x00030002
abbrev keyPoolReq : Nat := 0x00030003
abbrev keyPoolWb : Nat := 0x00030004
abbrev keyPoolRsp : Nat := 0x00030005
abbrev keyPoolMem : Nat := 0x00030006
abbrev keyEncAlg : Nat := 0x00030007
abbrev keyWinBase : Nat := 0x00040001
abbrev keyWinSize : Nat := 0x00040002
abbrev keyQuota : Nat := 0x00040003
abbrev keyHeadroom : Nat := 0x00040004
abbrev keyWayLimit : Nat := 0x00040005
abbrev keyWeight : Nat := 0x00040006
abbrev keyMembers : Nat := 0x00040007
abbrev keyTxnCap : Nat := 0x00040008
abbrev keyFlags : Nat := 0x00040009
abbrev keyWbReserve : Nat := 0x00040010
abbrev keyMemTimeout : Nat := 0x00040011
abbrev keyFillRun : Nat := 0x00050001
abbrev keyRfmDiv : Nat := 0x00050002
abbrev keyBind : Nat := 0x00060001
abbrev keyRcThreshold : Nat := 0x00070001
abbrev keyRcWindow : Nat := 0x00070002
abbrev keyPatrolHbm : Nat := 0x00070003
abbrev keyPatrolBacking : Nat := 0x00070004
abbrev keyFilterEn : Nat := 0x00080001
abbrev keyFilterBase : Nat := 0x00080002
abbrev keyFilterSize : Nat := 0x00080003
abbrev keyFilterOpcode : Nat := 0x00080004
abbrev keyFilterAgent : Nat := 0x00080005
abbrev keyFilterPart : Nat := 0x00080006
abbrev keySampleN : Nat := 0x00080007
abbrev keyFullPolicy : Nat := 0x00080008
abbrev keyObsStream : Nat := 0x00080010
abbrev keyObsSnapshot : Nat := 0x00080011
abbrev keyGran : Nat := 0x000C0001
abbrev keyIt : Nat := 0x000C0002

/-- What kind of index a key takes (Table CMD-11, Index column). -/
inductive IndexKind where
  | none | port | part | agent | filter | entry
  deriving DecidableEq, Repr

/-- R316: a key's size, default, whether it is disruptive, whether it is of domain scope, and its index. -/
structure KeyInfo where
  /-- LEN in bytes -/
  len : Nat
  /-- default value -/
  dflt : Nat
  /-- takes effect as R290 gives -/
  disruptive : Bool := false
  /-- of domain scope (R213) -/
  domain : Bool := false
  /-- what INDEX selects -/
  index : IndexKind := .none
  deriving DecidableEq, Repr

/-- Table CMD-11, with the defaults of Tables MBX-7, POOL-4 and PROT-5; none for an unassigned key code. -/
def keyInfo (key : Nat) : Option KeyInfo :=
  if key = keyWmWb then some { len := 2, dflt := 448 }
  else if key = keyWmTxn then some { len := 2, dflt := 832 }
  else if key = keyWmSbq then some { len := 1, dflt := 48 }
  else if key = keyWmPool then some { len := 4, dflt := 4096 }
  else if key = keyPersonality then some { len := 1, dflt := 0, disruptive := true, index := .port }
  else if key = keyGenCap then some { len := 1, dflt := 7, index := .port }
  else if key = keyPoolReq then some { len := 2, dflt := 256, index := .port }
  else if key = keyPoolWb ∨ key = keyPoolRsp then some { len := 2, dflt := 320, index := .port }
  else if key = keyPoolMem then some { len := 2, dflt := 640, index := .port }
  else if key = keyEncAlg then some { len := 1, dflt := 1, index := .port }
  else if key = keyWinBase then some { len := 8, dflt := 0, disruptive := true, domain := true, index := .part }
  else if key = keyWinSize then some { len := 4, dflt := 0, disruptive := true, domain := true, index := .part }
  else if key = keyQuota then some { len := 4, dflt := 0, index := .part }
  else if key = keyHeadroom then some { len := 4, dflt := 64, index := .part }
  else if key = keyWayLimit then some { len := 1, dflt := 16, index := .part }
  else if key = keyWeight then some { len := 1, dflt := 16, index := .part }
  else if key = keyMembers then some { len := 32, dflt := 0, domain := true, index := .part }
  else if key = keyTxnCap then some { len := 2, dflt := 928, index := .part }
  else if key = keyFlags then some { len := 1, dflt := 0, domain := true, index := .part }
  else if key = keyWbReserve then some { len := 4, dflt := 256 }
  else if key = keyMemTimeout then some { len := 4, dflt := 1000 }
  else if key = keyFillRun then some { len := 1, dflt := 4 }
  else if key = keyRfmDiv then some { len := 1, dflt := 1 }
  else if key = keyBind then some { len := 2, dflt := 0x1F, disruptive := true, index := .agent }
  else if key = keyRcThreshold then some { len := 1, dflt := 3 }
  else if key = keyRcWindow then some { len := 2, dflt := 24 }
  else if key = keyPatrolHbm then some { len := 2, dflt := 24 }
  else if key = keyPatrolBacking then some { len := 2, dflt := 0 }
  else if key = keyFilterEn then some { len := 1, dflt := 0, index := .filter }
  else if key = keyFilterBase ∨ key = keyFilterSize then some { len := 8, dflt := 0, index := .filter }
  else if key = keyFilterOpcode ∨ key = keyFilterAgent ∨ key = keyFilterPart then
    some { len := 32, dflt := 2 ^ 256 - 1, index := .filter }
  else if key = keySampleN then some { len := 2, dflt := 1, index := .filter }
  else if key = keyFullPolicy then some { len := 1, dflt := 1, index := .filter }
  else if key = keyObsStream then some { len := 1, dflt := 0 }
  else if key = keyObsSnapshot then some { len := 2, dflt := 1000 }
  else if key = keyGran then some { len := 1, dflt := 30, disruptive := true, domain := true }
  else if key = keyIt then some { len := 1, dflt := 0, disruptive := true, domain := true, index := .entry }
  else none

/-- The default of a key and index: filter 0 alone is enabled by default. -/
def keyDefault (key index : Nat) : Nat :=
  if key = keyFilterEn ∧ index = 0 then 1 else match keyInfo key with | some i => i.dflt | none => 0

/-- A key and index in a sparse list, or its default. -/
def cfgLookup (cfg : List CfgEnt) (key index : Nat) : Nat :=
  match cfg.find? fun e => e.key == key && e.index == index with
  | some e => e.value
  | none => keyDefault key index

/-- The value in force of a key and index. -/
def cfgGet (s : State) (key index : Nat) : Nat := cfgLookup s.mgmt.cfg key index

/-- A sparse list with a key and index set; default values are not listed. -/
def cfgPut (cfg : List CfgEnt) (e : CfgEnt) : List CfgEnt :=
  let rest := cfg.filter fun x => !(x.key == e.key && x.index == e.index)
  if e.value = keyDefault e.key e.index then rest else rest ++ [e]

/-- R20: the personality an encoding names; OFF for one that names none. -/
def personalityOf : Nat → Personality
  | 1 => .peerOlk | 2 => .peerCxl2 | 3 => .peerCxl3 | 4 => .memOlk | 5 => .memCxl | _ => .off

/-- R20: the personality of a port. -/
def personality (s : State) (p : Fin 24) : Personality := personalityOf (cfgGet s keyPersonality p.val)

/-- R20: the port holds a peer personality. -/
def isPeer (s : State) (p : Fin 24) : Bool :=
  match personality s p with | .peerOlk | .peerCxl2 | .peerCxl3 => true | _ => false

/-- R20: the port holds a memory personality. -/
def isMem (s : State) (p : Fin 24) : Bool := match personality s p with | .memOlk | .memCxl => true | _ => false

/-- The port runs the Olilek Link (not CXL, not OFF). -/
def isOlk (s : State) (p : Fin 24) : Bool := match personality s p with | .peerOlk | .memOlk => true | _ => false

/-- Table DOM-5: PORT of an agent's binding, when it names a port. -/
def bindPort (s : State) (a : Nat) : Option (Fin 24) :=
  let p := cfgGet s keyBind a % 32
  if h : p < 24 then some ⟨p, h⟩ else none

/-- Table DOM-5: ROLE of an agent's binding. -/
def bindRole (s : State) (a : Nat) : Nat := bits (cfgGet s keyBind a) 6 5

/-- An entry of the binding table. -/
def State.bind (s : State) (a : Nat) : Binding := if h : a < 256 then s.binds[a] else {}

/-- One entry of the binding table changed. -/
def State.updBind (s : State) (a : Nat) (f : Binding → Binding) : State :=
  if h : a < 256 then { s with binds := s.binds.set a (f s.binds[a]) } else s

/-- R54, R61: the agent is active on the port. -/
def activeOn (s : State) (a : Nat) (p : Fin 24) : Bool :=
  (s.bind a).status == .active && bindPort s a == some p && a < 256

/-- Agent IDs active on a port. -/
def activeIds (s : State) (p : Fin 24) : List Nat := (List.range 256).filter fun a => activeOn s a p

/-- R184: the partition whose window holds a byte address of fabric space. -/
def windowOf (s : State) (a : Nat) : Option Nat :=
  (s.mgmt.cfg.find? fun e => e.key == keyWinSize && e.value != 0 && e.index != 0 &&
    decide (cfgGet s keyWinBase e.index ≤ a ∧ a < cfgGet s keyWinBase e.index + e.value * 2 ^ 30)).map (·.index)

/-- The partition charged for a line: that of its window, or 0. -/
def partOf (s : State) (laddr : Nat) : Nat := (windowOf s (laddr * 64)).getD 0

/-- Table PROT-8: the PART of a record about a line; none where no window maps it. -/
def partKnown (s : State) (laddr : Nat) : Option Nat := windowOf s (laddr * 64)

/-- R212: home(A): the device index and the device-local address of a fabric address. -/
def homeOf (s : State) (a : Nat) : Nat × Nat :=
  let g := cfgGet s keyGran 0
  let c := a >>> g
  let i := c % 64
  let d := cfgGet s keyIt i
  let n := (List.range 64).countP fun j => cfgGet s keyIt j == d
  let r := (List.range i).countP fun j => cfgGet s keyIt j == d
  (d, ((c / 64) * n + r) * 2 ^ g + a % 2 ^ g)

/-- The device's own index in the domain (0 in a domain of one, R205). -/
def ownIndex (s : State) : Nat := s.dom.index.getD 0

/-- R212: the fabric address that the device is home to at a device-local address. -/
def fabricOf (s : State) (dla : Nat) : Nat :=
  let g := cfgGet s keyGran 0
  let mine := (List.range 64).filter fun j => cfgGet s keyIt j == ownIndex s
  let q := dla >>> g
  ((q / mine.length) * 64 + mine.getD (q % mine.length) 0) * 2 ^ g + dla % 2 ^ g

/-- The fabric addresses of the 512 pages of a fabric extent. -/
def extentPages (s : State) (fx : Nat) : List Nat := (List.range 512).map fun g => fabricOf s (fx * 2 ^ 21 + g * 4096)

/-- Some page of a fabric extent lies in a range of fabric addresses. -/
def extentMeets (s : State) (fx base len : Nat) : Bool := (extentPages s fx).any fun a => decide (base ≤ a ∧ a < base + len)

/-- Every page of a fabric extent lies in a range of fabric addresses. -/
def extentWithin (s : State) (fx base len : Nat) : Bool := (extentPages s fx).all fun a => decide (base ≤ a ∧ a < base + len)

/-- STRAP[1] ROLE: the device is its own primary, or the primary of its domain (R204). -/
def isPrimary (s : State) : Bool := s.dom.straps.getLsbD 1

/-- STRAP[2] RING_EN (R204). -/
def ringEn (s : State) : Bool := s.dom.straps.getLsbD 2

/-- R292: the domain has no secondaries. -/
def aloneInDomain (s : State) : Bool := !(ringEn s) || (s.dom.formed && s.dom.n == 1)

/-- The fabric extent of a line: DLA[45:21] (chapter 7). -/
def fxOf (s : State) (laddr : Nat) : Nat := (homeOf s (laddr * 64)).2 >>> 21

/-- The line's offset within its extent: page and line of the page. -/
def pageOf (s : State) (laddr : Nat) : Nat := bits (homeOf s (laddr * 64)).2 20 12

/-! ## Programmable counters (R319 to R323) -/

/-- The group of CTR_FREEZE a counter belongs to: 1-16 slices, 17 ports, 18 stacks, 19 device. -/
def counterGroup (n : Nat) : Nat := if n < 512 then n / 32 + 1 else if n < 704 then 17 else if n < 768 then 18 else 19

/-- The first counter and the number of counters of a unit. -/
def unitCounters (code unit : Nat) : Nat × Nat :=
  match code / 256 with
  | 1 => (32 * unit, 32)
  | 2 => (512 + 8 * unit, 8)
  | 3 => (704 + 16 * unit, 16)
  | _ => (768, 64)

/-- What an occurrence carries that a qualifier may ask for (Table OBS-1). -/
structure Occur where
  part : Option Nat := none
  agent : Option Nat := none
  port : Option Nat := none
  opcode : Option Nat := none
  deriving DecidableEq, Repr

/-- R320: the occurrence passes a counter's qualifier. -/
def qualOk (c : Counter) (q : Occur) : Bool :=
  match c.qualKind with
  | 0 => true
  | 1 => q.part == some c.qualValue
  | 2 => q.agent == some c.qualValue
  | 3 => q.port == some c.qualValue
  | 4 => q.opcode == some c.qualValue
  | _ => false

/-- R319: a counter advanced modulo 2^48; passing 2^48 - 1 sets OVF. -/
def counterAdd (c : Counter) (n : Nat) : Counter :=
  { c with value := c.value + BitVec.ofNat 48 n, ovf := c.ovf || decide (c.value.toNat + n ≥ 2 ^ 48) }

/-- R319 to R323: n occurrences of an event of a unit counted by every counter of the unit that is enabled, not
frozen, selects the event and whose qualifier they pass. -/
def countEv (s : State) (code unit : Nat) (q : Occur := {}) (n : Nat := 1) : State :=
  let (lo, len) := unitCounters code unit
  let counts := fun (c : Counter) => c.enable && c.event == code && decide (lo ≤ c.num ∧ c.num < lo + len) &&
    qualOk c q && !(s.obs.frozen.contains (counterGroup c.num))
  { s with obs := { s.obs with ctrs := s.obs.ctrs.map fun c => if counts c then counterAdd c n else c } }

/-! ## Trace (R331 to R334) -/

/-- Words the trace FIFO holds: whole records, and what is left of the record being read. -/
def traceWords (o : Obs) : Nat := (o.trace.map List.length).sum + o.readLeft.length + (if o.obsFromTrace then o.obsRec.length else 0)

/-- R331: a header word: VALID, LENM1, TYPE, FILTER, TIME_REL, TIME. -/
def traceHeader (s : State) (words typ filter : Nat) : BitVec 64 :=
  let t := if s.dom.timeValid then domNs s else nowNs s
  BitVec.ofNat 64 (2 ^ 63 + (words - 1) * 2 ^ 58 + typ * 2 ^ 50 + filter * 2 ^ 48 +
    (b2n (!s.dom.timeValid)) * 2 ^ 47 + t % 2 ^ 47)

/-- R331: the trace FIFO holds 524,288 words. -/
abbrev traceDepth : Nat := 524288

/-- R334: the LOSS record to place before a kept record, when the pending loss count is not 0. -/
def lossRecord (s : State) : List (List (BitVec 64)) :=
  if s.obs.lossPending = 0 then []
  else [[traceHeader s 2 8 0, BitVec.ofNat 64 (min s.obs.lossPending (2 ^ 32 - 1))]]

/-- R334: a record dropped and counted. -/
def traceDrop (s : State) : State :=
  countEv { s with obs := { s.obs with lossPending := s.obs.lossPending + 1 } } 0x040D 0

/-- R334: a record kept, dropped, or held by a producer whose filter's policy is to stall. -/
def tracePut (s : State) (rec : List (BitVec 64)) (stall : Bool) : State :=
  let loss := lossRecord s
  let need := rec.length + (loss.map List.length).sum
  if traceWords s.obs + s.obs.traceFreed + need ≤ traceDepth ∧ s.obs.stalled = [] then
    countEv { s with obs := { s.obs with
      trace := s.obs.trace ++ loss ++ [rec], traceHidden := s.obs.traceHidden + 1 + loss.length, lossPending := 0 } } 0x040C 0 {} (1 + loss.length)
  else if stall then { s with obs := { s.obs with stalled := s.obs.stalled ++ [rec] } }
  else traceDrop s

/-- R333: what a filter tests of a candidate record; a MEM record has no agent, a metadata access no line. -/
structure TraceKey where
  line : Option Nat := none
  opcode : Nat := 0
  agent : Option Nat := none
  part : Nat := 0
  deriving DecidableEq, Repr

/-- R333: the record matches filter f. -/
def filterMatch (s : State) (f : Nat) (k : TraceKey) : Bool :=
  let size := cfgGet s keyFilterSize f
  let base := cfgGet s keyFilterBase f
  cfgGet s keyFilterEn f == 1 &&
  (match k.line with
   | none => size == 0
   | some l => size == 0 || decide (base ≤ l * 64 ∧ l * 64 < base + size)) &&
  bitOf (cfgGet s keyFilterOpcode f) k.opcode &&
  (match k.agent with | none => true | some a => bitOf (cfgGet s keyFilterAgent f) a) &&
  bitOf (cfgGet s keyFilterPart f) k.part

/-- R333: filter f counts the match; it selects the record when the count reaches SKEIN_SAMPLE_N. -/
def filterStep (s : State) (k : TraceKey) (f : Fin 4) : State × Bool :=
  if filterMatch s f.val k then
    let n := s.obs.matched[f] + 1
    if n ≥ cfgGet s keySampleN f.val then ({ s with obs := { s.obs with matched := s.obs.matched.set f 0 } }, true)
    else ({ s with obs := { s.obs with matched := s.obs.matched.set f n } }, false)
  else (s, false)

/-- R333: a candidate record of types 0x01 to 0x05 goes through the four filters. -/
def traceRecord (s : State) (typ : Nat) (k : TraceKey) (body : List Nat) : State :=
  if s.obs.running then
    let (s0, c0) := filterStep s k 0
    let (s1, c1) := filterStep s0 k 1
    let (s2, c2) := filterStep s1 k 2
    let (s3, c3) := filterStep s2 k 3
    let pick : Option Nat := if c0 then some 0 else if c1 then some 1 else if c2 then some 2 else if c3 then some 3 else none
    match pick with
    | none => s3
    | some f =>
      tracePut s3 (traceHeader s3 (body.length + 1) typ f :: body.map (BitVec.ofNat 64)) (cfgGet s3 keyFullPolicy f == 0)
  else s

/-- Table OBS-7: an EVENT record, which passes no filter and follows the drop policy. -/
def traceEvent (s : State) (seq cls sev kind src : Nat) : State :=
  if s.obs.running then
    tracePut s [traceHeader s 3 7 0, BitVec.ofNat 64 seq, BitVec.ofNat 64 (cls + sev * 2 ^ 8 + kind * 2 ^ 16 + src * 2 ^ 24)] false
  else s

/-- The three words a message's header slot gives a trace record (Table OBS-7), with port, slice and partition. -/
def traceMsgBody (hdr : Nat) (port slice part : Nat) : List Nat :=
  [hdr % 2 ^ 64, bits hdr 127 64, bits hdr 143 128 + port * 2 ^ 16 + slice * 2 ^ 24 + part * 2 ^ 28]

/-! ## Notifications and error records (R249, R278, R425) -/

/-- R425: an event enters the intake; one that finds it full is dropped and counted. -/
def notify (s : State) (e : Event) : State :=
  if s.mgmt.intake.length < 256 then { s with mgmt := { s.mgmt with intake := s.mgmt.intake ++ [e] } }
  else { s with mgmt := { s.mgmt with nqLost := s.mgmt.nqLost + 1, intakeLost := s.mgmt.intakeLost + 1 } }

/-- R425: Spindle cannot run: halted, restarting, or in live activation. A record written then makes no event; the scan of step 4
notifies it. -/
def spindleAway (s : State) : Bool := match s.mgmt.state with | .halted | .liveActivation | .restarting => true | _ => false

/-- Table PROT-9: SEVERITY of a record class, where the class fixes it. -/
def classSeverity (cls : Nat) : Nat :=
  match cls with
  | 0x01 | 0x04 | 0x06 | 0x0B | 0x10 => 1
  | 0x02 | 0x03 | 0x05 | 0x07 | 0x09 | 0x0C | 0x20 | 0x21 | 0x31 | 0x32 | 0x33 => 2
  | 0x08 | 0x11 | 0x22 | 0x30 | 0x42 | 0x43 => 3
  | 0x0A | 0x50 | 0x51 => 4
  | _ => 0

/-- R249: the coalescing key: CLASS, SOURCE_KIND with SOURCE, ADDR_KIND with ADDR. Of the records that R223 asks for once for each agent
ID it holds the AGENT too (assumption 83). -/
def recKey (r : LogRec) : Nat × Nat × Nat × Nat × Option Nat × Option Nat :=
  (r.cls, r.srcKind, r.src, r.addrKind, r.addr, if r.cls == 0x22 || r.cls == 0x23 then r.agent else none)

/-- R249: the n most recent records of distinct key, newest first. -/
def recentDistinct : Nat → List LogRec → List LogRec
  | 0, _ => []
  | _, [] => []
  | n + 1, r :: rs => r :: recentDistinct n (rs.filter fun x => recKey x != recKey r)


/-- Table MBX-5: the record is notified: SEVERITY 2 or above, or RING_DOWN, REMOTE_FAULT or SCRUB_DONE. -/
def recNotified (r : LogRec) : Bool := decide (2 ≤ r.severity) || r.cls == 0x40 || r.cls == 0x41 || r.cls == 0x0D

/-- R379: TIME and TIME_RELATIVE of a record captured now. -/
def recTime (s : State) : Nat × Bool :=
  if s.cal.valid then (s.cal.sec * 1000000000 + s.cal.ns, false) else (nowNs s, true)

/-- R249: an error record written by hardware, or coalesced into an earlier one of its key. -/
def logError (s : State) (r0 : LogRec) : State :=
  let (tm, rel) := recTime s
  let r := { r0 with seq := s.prot.nextSeq, time := tm, relative := rel, count := 1, firstAt := nowNs s,
                     domTime := if s.dom.timeValid then domNs s else 0 }
  match (recentDistinct 16 s.prot.log).find? fun x => recKey x == recKey r && decide (nowNs s ≤ x.firstAt + 1000000000) with
  | some old =>
    let log' := updFirst (fun x => x.seq == old.seq)
      (fun x => { x with count := min (x.count + 1) (2 ^ 32 - 1), coalesced := true }) s.prot.log
    { s with prot := { s.prot with log := log' } }
  | none =>
    let full := decide (65536 ≤ s.prot.log.length)
    let s1 := { s with prot := { s.prot with log := (r :: s.prot.log).take 65536, nextSeq := s.prot.nextSeq + 1 } }
    let s2 := if full then countEv s1 0x040A 0 else s1
    let s3 := if decide (2 ≤ r.severity) then traceEvent s2 r.seq r.cls r.severity r.srcKind r.src else s2
    if recNotified r && !(spindleAway s3) then
      notify s3 { ntype := 1, arg := r.cls + r.severity * 2 ^ 8 + r.srcKind * 2 ^ 16, word := some r.seq, seq := some r.seq }
    else s3

/-- An error record of a class with its fixed severity. -/
def logClass (s : State) (cls kind src : Nat) (addr : Option (Nat × Nat) := none) (part agent : Option Nat := none)
    (detail : Nat := 0) : State :=
  logError s { cls := cls, severity := classSeverity cls, srcKind := kind, src := src, addr := addr.map (·.2),
               addrKind := match addr with | some (k, _) => k | none => 0, part := part, agent := agent, detail := detail }

/-! ## MSI-X (R403) -/

/-- R397, R403: the endpoint may send the message of a vector now. -/
def canSend (s : State) (x : Vector32) : Bool := s.hst.msixEnable && !x.masked && !s.hst.d3hot && s.hst.busMaster

/-- A vector changed. -/
def setVector (s : State) (v : Fin 32) (x : Vector32) : State := { s with hst := { s.hst with vectors := s.hst.vectors.set v x } }

/-- R403: an event raises a vector: a message when it may be sent; its pending bit when it may not yet; the event held while MSI-X
is disabled. -/
def raiseVector (s : State) (v : Fin 32) : State :=
  let x := s.hst.vectors[v]
  if !s.hst.msixEnable then setVector s v { x with held := true }
  else if canSend s x then s.emit (.msix v)
  else setVector s v { x with pending := true }

/-- R397, R403: a pending vector that may be sent is sent. -/
def sendPending (s : State) (v : Fin 32) : State :=
  let x := s.hst.vectors[v]
  if x.pending && canSend s x then State.emit (setVector s v { x with pending := false }) (.msix v) else s

/-- Every pending vector that may be sent is sent. -/
def sendAllPending (s : State) : State := (List.finRange 32).foldl sendPending s

/-! ## Ring frames (R206) -/

/-- R206: the bytes of a frame before its CRC. -/
def frameBytes (typ dst src hops : Nat) (payload : List Byte) : List Byte :=
  leBytes 1 typ ++ leBytes 1 dst ++ leBytes 1 src ++ leBytes 1 hops ++ leBytes 2 payload.length ++ payload

/-- A frame of the device's own sent on the ring. -/
def ringSend (s : State) (typ dst : Nat) (payload : List Byte) : State :=
  let src := s.dom.index.getD 0xFE
  s.emit (.ring typ dst src 0 payload (crc32 (frameBytes typ dst src 0 payload)))

/-! ## Status codes (Table CMD-1) -/

abbrev stOk : Nat := 0
abbrev stBusy : Nat := 1
abbrev stBadOpcode : Nat := 2
abbrev stBadArg : Nat := 3
abbrev stNoTxn : Nat := 4
abbrev stTxnOpen : Nat := 5
abbrev stInvalid : Nat := 6
abbrev stChildBusy : Nat := 7
abbrev stDeferred : Nat := 8
abbrev stUnavailable : Nat := 9
abbrev stNotPermitted : Nat := 10
abbrev stTimeout : Nat := 11
abbrev stUnreachable : Nat := 12

/-- What a command answers: STATUS, DETAIL and payload. -/
structure Reply where
  /-- STATUS -/
  status : Nat := 0
  /-- DETAIL -/
  detail : Nat := 0
  /-- PAYLOAD -/
  payload : List Byte := []
  deriving DecidableEq, Repr

/-- OK with a payload. -/
def replyOk (payload : List Byte := []) : Reply := { payload := payload }
/-- BAD_ARG. -/
def replyBad : Reply := { status := stBadArg }
/-- NOT_PERMITTED with its cause. -/
def replyNo (detail : Nat) (payload : List Byte := []) : Reply := { status := stNotPermitted, detail := detail, payload := payload }

/-- Table MBX-2: the bytes of a response. -/
def respBytes (op cookie responder : Nat) (r : Reply) : List Byte :=
  leBytes 2 op ++ leBytes 1 r.status ++ leBytes 1 responder ++ leBytes 2 r.payload.length ++ leBytes 2 (if r.status = 0 then 0 else r.detail) ++
  leBytes 4 cookie ++ leBytes 4 0 ++ r.payload

/-- R215: the fragments of up to 232 bytes that carry an area: RELAY_ID, OFFSET, TOTAL, LAST. -/
def relayFragments (id : Nat) (bs : List Byte) : List (List Byte) :=
  let n := max 1 ((bs.length + 231) / 232)
  (List.range n).map fun i =>
    leBytes 2 id ++ leBytes 2 (232 * i) ++ leBytes 2 bs.length ++ leBytes 1 (b2n (i + 1 == n)) ++ leBytes 1 0 ++ (bs.drop (232 * i)).take 232

/-- R272, R273: the response of the primary host mailbox is written, the mailbox shows DONE, and vector 0 is raised. -/
def respondPrimary (s : State) (bytes : List Byte) (status : Nat) : State :=
  raiseVector { s with mgmt := { s.mgmt with pri := { s.mgmt.pri with state := .done, lastStatus := status, resp := bytes } } } 0

/-- A response sent the way its command came. -/
def respond (s : State) (via : Via) (op cookie relayId responder : Nat) (r : Reply) : State :=
  let bytes := respBytes op cookie responder r
  match via with
  | .primary => respondPrimary s bytes r.status
  | .secondary =>
    State.emit { s with mgmt := { s.mgmt with sec := { s.mgmt.sec with state := .idle, lastStatus := r.status, resp := bytes } } } (.secondary bytes)
  | .relay => (relayFragments relayId bytes).foldl (fun s f => ringSend s 0x11 0 f) s

/-! ## Containment (R263 to R265) -/

/-- R264: SALVAGE_OK of a first fault code. -/
def salvageOf (code : Nat) : Bool :=
  let ident := code % 256
  let sub := bits code 31 24
  [0x01, 0x02, 0x07, 0x08, 0x09, 0x0A, 0x0B, 0x21].contains ident || (ident == 0x20 && (sub == 0 || sub == 3))

/-! ## Stalagmite counters (R373) -/

/-- R373: the value of a stalagmite counter. -/
def stalGet (s : State) (id index : Nat) : Nat :=
  match s.led.stal.find? fun x => x.id == id && x.index == index with | some x => x.value | none => 0

/-- R373: a stalagmite counter raised to at least a value. -/
def stalRaise (s : State) (id index v : Nat) : State :=
  let old := match s.led.stal.find? fun x => x.id == id && x.index == index with | some x => x | none => { id := id, index := index }
  { s with led := { s.led with stal := upsert (fun x => x.id == id && x.index == index) { old with value := max old.value v } s.led.stal } }

/-- R373: a stalagmite counter advanced by n. -/
def stalAdd (s : State) (id index n : Nat) : State := stalRaise s id index (stalGet s id index + n)

/-! ## The ledger log (R366 to R369) -/

/-- R366: the bytes of a ledger record. -/
def ledRecBytes (r : LedRec) : List Byte :=
  let b := leBytes 8 r.lseq ++ leBytes 1 r.cls ++ leBytes 1 (b2n r.relative + 2 * b2n r.checkpoint) ++ leBytes 2 0 ++ leBytes 8 r.time ++ padTo 40 r.body
  b ++ leBytes 4 (crc32 b)

/-- R367: a record appended at the head of the log, which wraps from slot 65,535 to slot 16. -/
def ledgerAppend (s : State) (cls : Nat) (body : List Byte) (checkpoint : Bool := false) : State :=
  let (t, rel) := recTime s
  let r : LedRec := { lseq := s.led.lseq, cls := cls, relative := rel, checkpoint := checkpoint, time := t, body := padTo 40 body }
  { s with led := { s.led with
    log := (r :: s.led.log).take 65520, head := if 65535 ≤ s.led.head then 16 else s.led.head + 1,
    lseq := s.led.lseq + 1, sinceCkpt := s.led.sinceCkpt + 1 } }

/-- R371: Spindle can write the ledger: it is mounted and Spindle runs. -/
def ledgerWritable (s : State) : Bool :=
  s.led.mounted && !(spindleAway s)

/-- A ledger record written as its event occurs, or held until Spindle can write it (R371). -/
def ledgerRecord (s : State) (cls : Nat) (body : List Byte) : State :=
  if ledgerWritable s then ledgerAppend s cls body else { s with led := { s.led with held := s.led.held ++ [(cls, body)] } }

/-- The records held are written, in order. -/
def ledgerFlush (s : State) : State :=
  s.led.held.foldl (fun s r => ledgerAppend s r.1 r.2) { s with led := { s.led with held := [] } }

/-- R369: two root copies agree. -/
def rootsAgree (a b : Root) : Bool := a.valid && b.valid && a == b

/-- R369: the root: the value two valid copies share, else the valid copy with the highest ROOT_SEQ. -/
def rootValue (s : State) : Option Root :=
  let a := s.led.roots[0]
  let b := s.led.roots[1]
  let c := s.led.roots[2]
  if rootsAgree a b || rootsAgree a c then some a
  else if rootsAgree b c then some b
  else (s.led.roots.toList.filter (·.valid)).foldl (fun (m : Option Root) r =>
    match m with | some x => if x.seq < r.seq then some r else m | none => some r) none

/-- R369: the root rewritten, in every copy, with the next ROOT_SEQ. -/
def rootWrite (s : State) (f : Root → Root) : State :=
  let old := (rootValue s).getD {}
  let new := { f old with seq := old.seq + 1, valid := true }
  { s with led := { s.led with roots := Vector.replicate 3 new } }

/-- R265 step 7, Table LED-4: the CONTAINMENT record made from the latch, once. -/
def ledgerContainment (s : State) : State :=
  match s.cons.latch with
  | none => s
  | some (code, dom, ns) =>
    if s.led.containments.any fun c => c.1 == code && c.2.2.1 == dom && c.2.2.2.1 == ns then s
    else
      let s1 := ledgerAppend s 0x0A (leBytes 4 code ++ leBytes 1 (b2n (salvageOf code)) ++ leBytes 8 dom ++ leBytes 8 ns)
      let s2 := stalAdd s1 9 0 1
      { s2 with led := { s2.led with containments := ((code, salvageOf code, dom, ns, stalGet s2 1 0) :: s2.led.containments).take 64 } }

/-- R263: a fault code. -/
def faultCode (ident kind unit sub : Nat) : Nat := ident + kind * 2 ^ 8 + unit * 2 ^ 16 + sub * 2 ^ 24

/-- R265 step 7: the class of the record of a CONTAIN fault. -/
def faultClass (code : Nat) : Nat :=
  match code % 256 with | 0x20 => 0x51 | 0x21 | 0x22 => 0x0A | _ => 0x50

/-! ## Rollback of a commit (R268, R275, R290) -/

/-- A staged value differs from the one in force. -/
def isChange (s : State) (e : CfgEnt) : Bool := cfgGet s e.key e.index != e.value

/-- The port drains for a PORT_MAINT that has not completed (R302). -/
def maintDrains (s : State) (p : Nat) : Bool := s.mgmt.works.any fun w => w.op == 0x0301 && w.arg0 == p && w.arg1 == 0

/-- R290, Table MBX-10: the holds of a drain are released: ports return credits again, non-caching IDs are idle under their
old binding, and the discards of the drain end. -/
def releaseDrain (s : State) (staged : List CfgEnt) : State :=
  let s1 := (staged.filter (isChange s)).foldl (fun s e =>
    if e.key == keyPersonality then
      (if h : e.index < 24 then s.updPort ⟨e.index, h⟩ fun x => { x with link := { x.link with draining := maintDrains s e.index } } else s)
    else if e.key == keyBind && decide (64 ≤ e.index) && (s.bind e.index).status == .disowning then
      s.updBind e.index fun b => { b with status := .idle }
    else s) s
  { s1 with mgmt := { s1.mgmt with works := s1.mgmt.works.filter (·.op != 0x0413) } }

/-- R268, R275, R298: an open transaction whose commit window has not begun ends; a CFG_COMMIT of it that has not completed does
so with the reply given. A domain commit that has been decided stands (R294). -/
def rollback (s : State) (responder : Nat) (r : Reply) : State :=
  match s.mgmt.txn with
  | none => s
  | some t =>
    if t.phase == .ring && (match s.dom.vote with | some v => v.decided == some true | none => false) then s
    else
      let s1 := if t.phase == .draining || t.phase == .armed then releaseDrain s t.staged else s
      let ws := s1.mgmt.works.filter (·.op == 0x0203)
      let s2 := { s1 with mgmt := { s1.mgmt with txn := none, works := s1.mgmt.works.filter (·.op != 0x0203) } }
      ws.foldl (fun s w => if w.responded then s else respond s w.via w.op w.cookie w.relayId responder r) s2

/-- R265: a fault of class CONTAIN: it enters containment, or is recorded when containment holds. FAULT_N, the FAULT
frame, the containment latch in MRAM, the error record and the ledger record of Table CONS-4 follow; an open
transaction whose window has not begun is rolled back (R268). -/
def contain (s : State) (code : Nat) : State :=
  let rec1 := fun (s : State) =>
    logError s { cls := faultClass code, severity := 4, srcKind := bits code 15 8, src := bits code 23 16, detail := code }
  if s.cons.contained then
    rec1 { s with cons := { s.cons with later := min (s.cons.later + 1) 255 } }
  else
    let s1 := raiseVector { s with
      cons := { s.cons with contained := true, first := code, salvage := salvageOf code,
                            latch := some (code, (if s.dom.timeValid then domNs s else 0), nowNs s) } } 1
    let s2 := if ringEn s && s.dom.formed && !s.dom.down then
        ringSend s1 5 0xFF (leBytes 1 4 ++ leBytes 4 code) else s1
    let s3 := if ledgerWritable s2 then ledgerContainment s2 else s2
    rec1 (rollback s3 (ownIndex s3) (replyNo 0x0102))

/-! ## Triplicated words (R239) -/

/-- R239: a read of a triplicated word votes its copies: one that differs is rewritten, counted and recorded; a word whose copies are
all different is a CRITICAL_WORD_LOSS. -/
def tmrVote (s : State) (u : TmrUpset) : State :=
  let (a, b, c) := u.copies
  if a = b ∧ b = c then s
  else if a = b ∨ b = c ∨ a = c then logClass (countEv s 0x0408 0) 0x10 7 0 none none none (u.word + u.index * 256)
  else contain s (faultCode 0x20 7 0 u.word)

/-- R239: a write of a triplicated word updates all three copies. -/
def wordWritten (s : State) (word index : Nat) : State :=
  { s with prot := { s.prot with upsets := s.prot.upsets.filter fun u => !(u.word == word && u.index == index) } }

/-- R239: a triplicated word is read, and the copies of it that do not agree are met. -/
def wordRead (s : State) (word index : Nat) : State :=
  match s.prot.upsets.find? fun u => u.word == word && u.index == index with
  | some u => tmrVote (wordWritten s word index) u
  | none => s

/-- R239: words read one after the other. -/
def wordsRead (s : State) (ws : List (Nat × Nat)) : State := ws.foldl (fun s w => wordRead s w.1 w.2) s

/-! ## Start-up steps (R355) -/

/-- Table HOST-5, GSTATUS.STEP: the highest n, at most 15, such that steps 1 to n have all ended. -/
def stepOf (done : List Nat) : Nat := (List.range 16).countP fun n => decide (1 ≤ n) && (List.range n).all fun i => done.contains (i + 1)

/-- A step of Table CLK-5 ends. -/
def stepEnd (s : State) (n : Nat) : State :=
  let done := if s.clk.stepDone.contains n then s.clk.stepDone else s.clk.stepDone ++ [n]
  { s with clk := { s.clk with stepDone := done, step := stepOf done } }

/-! ## Free values (assumption 3) -/

/-- The next free number, and the counter advanced. -/
def freshNat (s : State) : Nat × State := (Config.freeNat s.fresh, { s with fresh := s.fresh + 1 })

/-- The next free line, and the counter advanced. -/
def freshLine (s : State) : Line × State := (Config.freeLine s.fresh, { s with fresh := s.fresh + 1 })

end Sys2Proof.Machine
end

