-- ==== Sys2Proof/Machine/Bar2.lean ====
section
/-! DEFINITION. The counter block as BAR2 shows it (Table OBS-3): 64-bit words by offset, for host reads (R324) and for
the counter window in fabric address (R325). -/

namespace Sys2Proof.Machine
open Sys2Proof

/-- R319: a programmable counter; one that is not listed holds its reset values. -/
def counterOf (s : State) (n : Nat) : Counter :=
  match s.obs.ctrs.find? (·.num == n) with | some c => c | none => { num := n }

/-- R319: a counter word: the value, and OVF in bit 63. -/
def ctrWord (c : Counter) : Nat := c.value.toNat + b2n c.ovf * 2 ^ 63

/-- Table OBS-3, 0x2310: the freeze state of slices, ports, stacks and the device. -/
def freezeWord (s : State) : Nat :=
  ((List.range 19).map fun i => if s.obs.frozen.contains (i + 1) then 2 ^ i else 0).sum

/-- R318: a slot-class counter of a slice. -/
def classCount (c : SlotCount) (i : Nat) : Nat :=
  match i with | 0 => c.retired | 1 => c.wasted | 2 => c.front | _ => c.back

/-- The count of a bin of a port and class (R329). -/
def histGet (s : State) (port cls bin : Nat) : Nat :=
  match s.obs.hist.find? fun x => x.1 == port && x.2.1 == cls && x.2.2.1 == bin with | some x => x.2.2.2 | none => 0

/-- The cycles of a slot class of a slice attributed to a partition (R327). -/
def slotPartGet (s : State) (k part cls : Nat) : Nat :=
  match s.obs.slotPart.find? fun x => x.1 == k && x.2.1 == part && x.2.2.1 == cls with | some x => x.2.2.2 | none => 0

/-- The cycles of a subclass of a slice (R327). -/
def slotSubGet (s : State) (k sub : Nat) : Nat :=
  match s.obs.slotSub.find? fun x => x.1 == k && x.2.1 == sub with | some x => x.2.2 | none => 0

/-- Table OBS-3: the word at an offset of BAR2 that is a multiple of 8. -/
def bar2Word (s : State) (off : Nat) : Nat :=
  let w := if off < 0x2000 then (if off / 8 < 832 then ctrWord (counterOf s (off / 8)) else 0)
    else if off = 0x2000 then s.obs.cycles
    else if 0x2100 ≤ off ∧ off < 0x2300 then
      (if off % 0x20 / 8 < 4 then classCount (s.slices.toList.getD ((off - 0x2100) / 0x20) {}).cls (off % 0x20 / 8) else 0)
    else if off = 0x2300 then s.obs.dropped
    else if off = 0x2308 then b2n s.obs.histMode
    else if off = 0x2310 then freezeWord s
    else if 0x10000 ≤ off ∧ off < 0x1C000 then
      let o := off - 0x10000
      if s.obs.histMode && decide (o % 0x800 / 0x100 < 8) then histGet s (o / 0x800) (o % 0x800 / 0x100) (o % 0x100 / 8) else 0
    else if 0x20000 ≤ off ∧ off < 0x40000 then
      let o := off - 0x20000
      if s.obs.histMode then 0 else slotPartGet s (o / 0x2000) (o % 0x2000 / 0x20) (o % 0x20 / 8)
    else if 0x40000 ≤ off ∧ off < 0x40800 then
      let o := off - 0x40000
      if s.obs.histMode then 0 else slotSubGet s (o / 0x80) (o % 0x80 / 8)
    else 0
  w % 2 ^ 64

/-- R325: bytes x to x + 63 of BAR2 as a line. -/
def bar2Line (s : State) (x : Nat) : Line :=
  Line.ofBytes ((List.range 8).flatMap fun i => leBytes 8 (bar2Word s (x + 8 * i)))

end Sys2Proof.Machine
end

