-- ==== Sys2Proof/Machine/Run.lean ====
section
/-! DEFINITION. The core clock and the pass: one core cycle (`tick`), the accounting of a slice's cycle (R326), a pass
of a slice (R16), the watermarks (R283 to R285), and `runCmd`, in which every command of the block runs. -/

namespace Sys2Proof.Machine
open Sys2Proof

/-! ## One core cycle -/

/-- R326: the slot class of a subclass: 0 RETIRED, 1 WASTED, 2 FRONT_STARVED, 3 BACK_STARVED. -/
def slotClass : SubClass → Nat
  | .reqPass | .returnPass | .wbRspPass | .internalPass => 0
  | .conflictReplay | .pinnedVictim | .checkRetry => 1
  | .noSource | .windowIdle => 2
  | _ => 3

/-- Table OBS-4: the number of a subclass. -/
def subNumber : SubClass → Nat
  | .reqPass => 0 | .returnPass => 1 | .wbRspPass => 2 | .internalPass => 3 | .conflictReplay => 4
  | .pinnedVictim => 5 | .checkRetry => 6 | .noSource => 7 | .windowIdle => 8 | .entries => 9 | .hbm => 10
  | .backing => 11 | .egress => 12 | .directory => 13 | .windowReady => 14 | .other => 15

/-- R87, R427: the entry holds its line's place in home order, open or pending. -/
def holdsLine (t : Txn) : Bool :=
  match t.status with
  | .opened | .closing => true
  | .pending | .setBlocked => (match t.kind with | .req _ | .discard | .flush | .copyRead | .copyWrite => true | _ => false)
  | .waiting => false

/-- R87: a request for the line must wait on its chain. -/
def lineBusy (sl : Slice) (line : Nat) : Bool := sl.txns.any fun t => t.msg.laddr == line && holdsLine t

/-- R87: lines whose chain has a head that may be taken: its line's transaction has closed. -/
def chainHeads (sl : Slice) : List Txn :=
  (sl.txns.filter fun t => t.status == .waiting && !(lineBusy sl t.msg.laddr)).foldl
    (fun l t => if l.any fun x => x.msg.laddr == t.msg.laddr then l else l ++ [t]) []

/-- Table HOM-3: the sources ready at a slice, by rank; a message that waits for an entry, a cap or a buffer is ready (R326). -/
def ranksReady (s : State) (k : Fin 16) : List Bool :=
  let sl := s.slc k
  let some := fun (q : Port → List RxMsg) => (List.finRange 24).any fun p => (q s.ports[p]).any fun m => m.slice == k
  [(List.finRange 24).any fun p => s.ports[p].memQ.any fun m => s.ports[p].mem.outstanding.any fun o => o.tag == m.tag &&
      (match o.req.why with | .read j _ _ => j == k | .wbuf j _ _ => j == k | _ => false),
   some (·.rspQ), some (·.wbQ), (chainHeads sl) != [], some (·.reqQ),
   sl.expired.any fun x => sl.txns.any fun t => t.msg.laddr == x.1 && t.snoops.any fun n => n.agent == x.2 && !n.answered]

/-- R326: a source of the slice is ready: one of Table HOM-3, or a set-blocked request. -/
def sourceReady (s : State) (k : Fin 16) : Bool := (s.slc k).sbq != [] || (ranksReady s k).any id

/-- R152, R326: work of the slice that a full write buffer keeps from its pass: an eviction copy, a walker, a closing request. -/
def buffersBlock (sl : Slice) : Bool :=
  decide (512 ≤ sl.wbuf.length) &&
  (sl.slots.any (fun x => x.omask != 0) || sl.drain.active || sl.flush.active ||
   sl.txns.any fun t => t.status == .opened && t.snoops.all (·.answered) && !t.needTag && !t.waitWay && !t.flushWait &&
    (match t.read with | .none | .value _ _ | .discarded => true | _ => false))

/-- R326: the subclass in which the slice's current cycle is counted. -/
def cycleSub (s : State) (k : Fin 16) : SubClass :=
  match (s.slc k).cyc with
  | some c => c
  | none =>
    match (s.slc k).starve with
    | some c => c
    | none =>
      if buffersBlock (s.slc k) || (s.slc k).mapHeld != [] then .backing
      else if (s.slc k).sbq != [] then .directory
      else if sourceReady s k then .other else .noSource

/-- R318: the class counters of a slice with one more cycle of a class. -/
def addClass (c : SlotCount) (cls n : Nat) : SlotCount :=
  match cls with
  | 0 => { c with retired := c.retired + n }
  | 1 => { c with wasted := c.wasted + n }
  | 2 => { c with front := c.front + n }
  | _ => { c with back := c.back + n }

/-- A sparse table of counts with n added at a key. -/
def bump3 (l : List (Nat × Nat × Nat)) (a b n : Nat) : List (Nat × Nat × Nat) :=
  match l.find? fun x => x.1 == a && x.2.1 == b with
  | some x => upsert (fun y => y.1 == a && y.2.1 == b) (a, b, x.2.2 + n) l
  | none => l ++ [(a, b, n)]

/-- A sparse table of counts with n added at a key of three numbers. -/
def bump4 (l : List (Nat × Nat × Nat × Nat)) (a b c n : Nat) : List (Nat × Nat × Nat × Nat) :=
  match l.find? fun x => x.1 == a && x.2.1 == b && x.2.2.1 == c with
  | some x => upsert (fun y => y.1 == a && y.2.1 == b && y.2.2.1 == c) (a, b, c, x.2.2.2 + n) l
  | none => l ++ [(a, b, c, n)]

/-- R327: n cycles of a slice attributed to a subclass, its class and a partition. -/
def chargeCycle (s : State) (k : Fin 16) (c : SubClass) (part n : Nat) : State :=
  let cls := slotClass c
  let p := if c == .noSource || c == .windowIdle then 0 else part
  let s1 := { s with slices := s.slices.set k { s.slices[k] with cls := addClass s.slices[k].cls cls n } }
  if s.obs.histMode then s1
  else { s1 with obs := { s1.obs with slotPart := bump4 s1.obs.slotPart k.val p cls n,
                                      slotSub := bump3 s1.obs.slotSub k.val (subNumber c) n } }

/-- R326, R187, R88: the end of a slice's cycle: it is counted, BOUND[p] falls toward the cap, and each source that was ready and not
taken has waited one cycle more. -/
def closeCycle (s : State) (k : Fin 16) : State :=
  let s1 := chargeCycle s k (cycleSub s k) (s.slc k).cycPart 1
  let held := fun p => (s1.slc k).txns.countP fun t => t.pool == .general && !t.internal && t.part == p
  let bound' := ((s1.slc k).bound.map fun (p, b) => (p, min b (max (cfgGet s1 keyTxnCap p) (held p)))).filter
    fun (p, b) => decide (cfgGet s1 keyTxnCap p < b)
  let ready := ranksReady s k
  let waits' := (s1.slc k).waits.zipIdx.map fun (n, i) => if ready.getD i false && (s1.slc k).cycRank != i + 1 then min (n + 1) 64 else 0
  { s1 with slices := s1.slices.set k { s1.slices[k] with
      cyc := none, starve := if sourceReady s k then s1.slices[k].starve else none, cycPart := 0, bound := bound', waits := waits', cycRank := 0 } }

/-- R211: domain time advances by one core cycle; at half rate while the device is ahead by more than 1 us; a slew of
at most 300 ppm is applied once in 4,096 cycles. -/
def tickDomain (s : State) : State :=
  if !s.dom.timeRun then s
  else if s.dom.halfRate > 0 then
    if s.clk.half % 2 = 1 then { s with dom := { s.dom with halfRate := s.dom.halfRate - 1 } }
    else { s with dom := { s.dom with time := s.dom.time + 1 } }
  else if s.clk.half % 4096 = 0 ∧ s.dom.slew > 0 then
    { s with dom := { s.dom with time := s.dom.time + 2, slew := s.dom.slew - 1 } }
  else if s.clk.half % 4096 = 0 ∧ s.dom.slew < 0 then { s with dom := { s.dom with slew := s.dom.slew + 1 } }
  else { s with dom := { s.dom with time := s.dom.time + 1 } }

/-- R378: the calendar advances on the always-on clock, 40 ns every 80 core cycles. -/
def tickCalendar (s : State) : State :=
  if s.cal.sub + 1 < 80 then { s with cal := { s.cal with sub := s.cal.sub + 1 } }
  else if s.cal.ns + 40 < 1000000000 then { s with cal := { s.cal with sub := 0, ns := s.cal.ns + 40 } }
  else { s with cal := { s.cal with sub := 0, ns := s.cal.ns + 40 - 1000000000, sec := s.cal.sec + 1 } }

/-- Table OBS-1: cycles in which a message at egress waits for the partner's credits, and in which a producer stalls for
trace space. -/
def tickWaits (s : State) : State :=
  let waits := fun (x : Port) =>
    x.link.state == .active &&
    ((x.tx.cmpQ.head?.any fun m => decide (x.tx.avail.cmp < opSlots m.op)) ||
     (x.tx.snpQ.head?.any fun m => decide (x.tx.avail.snp < opSlots m.op)))
  let s1 := (List.finRange 24).foldl (fun s p => if waits s.ports[p] then countEv s 0x020A p.val else s) s
  if s1.obs.stalled = [] then s1 else countEv s1 0x040E 0 {} s1.obs.stalled.length

/-- R334: the held record of the producer that has waited longest is placed, when it fits. -/
def placeHeld (s : State) : Option State :=
  match s.obs.stalled with
  | [] => none
  | r :: rs =>
    let loss := lossRecord s
    if traceWords s.obs + s.obs.traceFreed + r.length + (loss.map List.length).sum ≤ traceDepth then
      some (countEv { s with obs := { s.obs with
        trace := s.obs.trace ++ loss ++ [r], traceHidden := s.obs.traceHidden + 1 + loss.length, lossPending := 0, stalled := rs } } 0x040C 0 {}
        (1 + loss.length))
    else none

/-- R334: records held by stalled producers are placed while there is space. -/
def releaseHeld : Nat → State → State
  | 0, s => s
  | n + 1, s => match placeHeld s with | some s1 => releaseHeld n s1 | none => s

/-- R22, R282, Table OBS-8: a core cycle later each side of the notification queue and of the trace FIFO sees what the other has done
(DESIGN CHOICE, assumption 85), and the records that waited for space are placed. -/
def syncCrossings (s : State) : State :=
  let s1 := { s with mgmt := { s.mgmt with nqHidden := 0, nqFreed := 0 }, obs := { s.obs with traceHidden := 0, traceFreed := 0 } }
  releaseHeld s1.obs.stalled.length s1

/-- One core cycle: every slice's cycle is counted, and the core-cycle counter, the time since PWRGOOD, domain time
and the calendar advance; while a reset holds only the always-on island counts (R361). -/
def tick (s : State) : State :=
  if s.clk.reset.isSome then tickCalendar { s with clk := { s.clk with half := s.clk.half + 1 } }
  else
    let s1 := tickWaits ((List.finRange 16).foldl closeCycle s)
    let s2 := { s1 with obs := { s1.obs with cycles := s1.obs.cycles + 1 }, clk := { s1.clk with half := s1.clk.half + 1 } }
    syncCrossings (tickCalendar (tickDomain s2))

/-! ## Passes (R16) -/

/-- A pass of a slice: the state it leaves, or the subclass that says why it is not taken (a BACK_STARVED subclass:
its source waits) or is replayed (a WASTED one). -/
abbrev PassM := Except SubClass State

/-- R350: the nodes of the gating tree on which a slice's passes depend: the slice, its quadrant and the core root. -/
def gatesSlice (k : Fin 16) (g : GateNode) : Bool := g.level == 0 || (g.level == 1 && g.index == k.val / 4) || (g.level == 2 && g.index == k.val)

/-- R350: a pass restarts the clocks it needs. -/
def wakeSlice (s : State) (k : Fin 16) : State :=
  if s.clk.gates.isEmpty then s
  else { s with clk := { s.clk with gates := s.clk.gates.map fun g => if gatesSlice k g then { g with stopped := false } else g } }

/-- R16: the slice's cycle is free for a pass; a slice that has taken its pass of this cycle starts a new one. -/
def beginPass (s : State) (k : Fin 16) : State := if (s.slc k).cyc.isSome then tick (wakeSlice s k) else wakeSlice s k

/-- R326: the slice's cycle is taken by a pass of a subclass, for a line's partition (unless already classed). -/
def markPass (s : State) (k : Fin 16) (c : SubClass) (part : Nat) (opcode : Option Nat := none) : State :=
  let s1 := countEv s 0x0101 k.val { part := some part, opcode := opcode }
  let sl := s1.slices[k]
  { s1 with slices := s1.slices.set k { sl with cyc := some (sl.cyc.getD c), cycPart := part } }

/-- R88: the rank of Table HOM-3 whose source a pass took. -/
def markRank (s : State) (k : Fin 16) (rank : Nat) : State :=
  if rank = 0 then s else { s with slices := s.slices.set k { s.slices[k] with cycRank := rank } }

/-- Table OBS-4: the cycle of the pass being taken is counted in a subclass of its own. -/
def classPass (s : State) (k : Fin 16) (c : SubClass) : State :=
  { s with slices := s.slices.set k { s.slices[k] with cyc := some ((s.slices[k].cyc).getD c) } }

/-- R16, R326: a pass of a source of a rank of Table HOM-3 (0: of none). A pass that cannot be taken leaves only the cycle's
accounting. -/
def runPass (s : State) (k : Fin 16) (cls : SubClass) (part : Nat) (f : State → PassM) (opcode : Option Nat := none) (rank : Nat := 0) : State :=
  let s0 := beginPass s k
  match f s0 with
  | .ok s1 => markRank (markPass s1 k cls part opcode) k rank
  | .error c =>
    if slotClass c = 1 then markPass s0 k c part opcode
    else { s0 with slices := s0.slices.set k { s0.slices[k] with starve := some c, cycPart := part } }

/-! ## Watermarks (R283 to R285) -/

/-- R175: free extents of a port. -/
def freeOf (m : PortMem) : Nat := m.pushed.length + (m.fresh.map fun (lo, hi) => hi - lo).sum

/-- R175: FREE, the device free count, over contributing ports. -/
def freeExtents (s : State) : Nat :=
  ((List.finRange 24).map fun p => if s.ports[p].mem.taken then freeOf s.ports[p].mem else 0).sum

/-- Table MBX-7: the count watermark w watches. -/
def wmCount (s : State) (w : Fin 49) : Nat :=
  let sl := s.slices[w.val % 16]
  match w.val / 16 with
  | 0 => sl.wbuf.length
  | 1 => poolOpen sl .general + poolWait sl .general
  | 2 => sl.sbq.length
  | _ => freeExtents s

/-- Table MBX-7: LEVEL of watermark w. -/
def wmLevel (s : State) (w : Fin 49) : Nat :=
  match w.val / 16 with
  | 0 => cfgGet s keyWmWb 0
  | 1 => cfgGet s keyWmTxn 0
  | 2 => cfgGet s keyWmSbq 0
  | _ => cfgGet s keyWmPool 0

/-- R284: a crossing of watermark w between two counts; a recheck compares the count as though it had just moved. -/
def wmCrosses (falling recheck : Bool) (level old new : Nat) : Bool :=
  level != 0 &&
  (if falling then decide (new < level) && (recheck || decide (level ≤ old))
   else decide (level < new) && (recheck || decide (old ≤ level)))

/-- R284, R285: watermark w after a step from old to new: CROSSED, PEAK, and whether it notifies. A recheck asked for
in an earlier step is made now. The pool watermark does not cross before step 14 has ended (Table HOST-8). -/
def wmStep (old new : State) (w : Fin 49) : Watermark × Bool :=
  let x := new.mgmt.wms[w]
  let o := wmCount old w
  let n := wmCount new w
  let falling := w.val == 48
  let due := old.mgmt.wms[w].recheck && x.recheck
  let cross := wmCrosses falling due (wmLevel new w) o n && !x.crossed && (!falling || (old.clk.stepDone.contains 14 && new.clk.stepDone.contains 14))
  ({ x with crossed := x.crossed || cross, peak := if falling then min x.peak n else max x.peak n,
            recheck := x.recheck && !due }, cross)

/-- Table MBX-5: the WATERMARK notification of a crossing. -/
def wmEvent (s : State) (w : Fin 49) : Event :=
  { ntype := 2, arg := (w.val / 16 + 1) + (if w.val = 48 then 0 else w.val % 16) * 2 ^ 8,
    word := some (wmLevel s w % 2 ^ 32 + (wmCount s w % 2 ^ 30) * 2 ^ 32) }

/-- R283: every watermark watches its count over the step. -/
def watch (old new : State) : State :=
  let fired := (List.finRange 49).filter fun w => (wmStep old new w).2
  let s1 := { new with mgmt := { new.mgmt with wms := Vector.ofFn fun w => (wmStep old new w).1 } }
  fired.foldl (fun s w => notify s (wmEvent s w)) s1

/-! ## Commands -/

/-- R373: monotonic counters: a value of the old list never falls. -/
def keepRising (old new : List Stal) : List Stal :=
  (old.map fun o =>
    match new.find? fun n => n.id == o.id && n.index == o.index with
    | some n => { o with value := max o.value n.value, written := max o.written n.written }
    | none => o) ++
  new.filter fun n => !(old.any fun o => n.id == o.id && n.index == o.index)

/-- R373: two entries are of the same stalagmite counter. -/
def sameStal (a b : Stal) : Bool := a.id == b.id && a.index == b.index

/-- R371, R373: what the ledger holds of a monotonic counter never falls, whatever the island loses; a counter is listed once, and
its value is never below what is written. -/
def keepWritten (old new : List Stal) : List Stal :=
  new.foldl (fun acc n => if acc.any (sameStal n) then acc else acc ++ [{ n with value := max n.value n.written }])
    (old.map fun o => match new.find? (sameStal o) with
      | some n => { o with value := max (max o.written n.value) n.written, written := max o.written n.written }
      | none => { o with value := o.written })

/-- What holds of every step whatever it does: the queue is not the command's, counters that saturate stay in range
(R273, R280, R347), and the stalagmite counters of the ledger never fall (R373). -/
def hold (old new : State) : State :=
  { new with
    pending := old.pending,
    mgmt := { new.mgmt with
      pri := { new.mgmt.pri with ringIgnored := min new.mgmt.pri.ringIgnored 255 },
      nqLost := min new.mgmt.nqLost (2 ^ 32 - 1) },
    cons := { new.cons with later := min new.cons.later 255 },
    clk := { new.clk with forced := min new.clk.forced 65535 },
    led := { new.led with stal := keepWritten old.led.stal new.led.stal } }

/-- R265, R269: CONTAINED and what it latched stay until a reset; domain time never falls (R211), and no stalagmite counter of the
island does while PWRGOOD holds (R371, R373). -/
def latch (old new : State) : State :=
  { new with
    cons := { new.cons with
      contained := old.cons.contained || new.cons.contained,
      first := if old.cons.contained then old.cons.first else new.cons.first,
      salvage := if old.cons.contained then old.cons.salvage else new.cons.salvage },
    dom := { new.dom with time := max old.dom.time new.dom.time },
    led := { new.led with stal := keepRising old.led.stal new.led.stal } }

/-- A step begins: what an earlier step sent has left. -/
def begin (s : State) : State := { s with out := [] }

/-- Every command but those that reset the device runs so. -/
def runCmd (f : State → State) (s : State) : Host.Outcome State Fault Refusal :=
  .next (hold s (latch s (watch s (f (begin s)))))

/-- The commands that can reset the device run so: no latch is held through a reset. -/
def runReset (f : State → State) (s : State) : Host.Outcome State Fault Refusal :=
  .next (hold s (watch s (f (begin s))))

/-- The block idles: one core cycle passes. -/
def idle (s : State) : Host.Outcome State Fault Refusal := runCmd tick s

end Sys2Proof.Machine
end

