-- ==== Sys2Proof/Machine/Wire.lean ====
section
/-! DEFINITION. Lane coding of an Olilek port: the striping of a flit over its logical lanes and the symbols of a lane (R26), and the
scrambler of each lane (R27). -/

namespace Sys2Proof.Machine
open Sys2Proof

/-- R26: the physical numbers of the active lanes, in ascending order: logical lane l is the l-th. -/
def activeLanes (mask : BitVec 4) : List Nat := (List.range 4).filter mask.getLsbD

/-- R26: the bytes of a flit on logical lane l of w: byte i of the flit is on lane i mod w. -/
def stripe (w l : Nat) (bs : List Byte) : List Byte := ((List.range bs.length).filter fun i => i % w == l).map fun i => bs.getD i 0

/-- R27: the seed of logical lane l. -/
def laneSeed (l : Nat) : BitVec 31 := 0x2AAAAAAA ^^^ BitVec.ofNat 31 l

/-- R27: the seeds of the four logical lanes. -/
def laneSeeds : Vector (BitVec 31) 4 := Vector.ofFn fun l => laneSeed l.val

/-- R27: one state of the scrambler x^31 + x^28 + 1: its output bit, and the state after it. Which bit of the register is the output is
the model's choice (assumption 70). -/
def scrStep (st : BitVec 31) : Bool × BitVec 31 :=
  let out := st.getLsbD 30
  (out, (st <<< 1) ||| (if out != st.getLsbD 27 then 1 else 0))

/-- R27: the output of eight states as a byte, the first in bit 0 (R26), and the state after them. -/
def scrByte (st : BitVec 31) : Byte × BitVec 31 :=
  (List.range 8).foldl (fun (acc : Byte × BitVec 31) i =>
    let r := scrStep acc.2
    (if r.1 then acc.1 ||| ((1 : Byte) <<< i) else acc.1, r.2)) (0, st)

/-- R27: the bytes of a lane scrambled, or descrambled, and the state of its scrambler after them. -/
def scramble (st : BitVec 31) : List Byte → List Byte × BitVec 31
  | [] => ([], st)
  | b :: bs =>
    let r := scrByte st
    let t := scramble r.2 bs
    ((b ^^^ r.1) :: t.1, t.2)

/-- R26, R27: the bytes of a flit through the scramblers of w lanes, in flit order, and the scramblers after it. -/
def scrambleFlit (w : Nat) (scr : Vector (BitVec 31) 4) (bs : List Byte) : List Byte × Vector (BitVec 31) 4 :=
  let lanes : Vector (List Byte × BitVec 31) 4 := Vector.ofFn fun l => scramble scr[l] (if l.val < w then stripe w l.val bs else [])
  ((List.range bs.length).map fun i => ((lanes.getD (i % w) ([], 0)).1).getD (i / w) 0, lanes.map (·.2))

/-- R26: the Gray code of a bit pair in PAM4. -/
def grayLevel : Nat → Int | 0 => -3 | 1 => -1 | 3 => 1 | _ => 3

/-- R26: the symbols of a byte: in NRZ its bits, bit 0 first; in PAM4 the levels of its pairs, bits [1:0] first. -/
def byteSymbols (gen : Nat) (b : Byte) : List Int :=
  if gen = 1 then (List.range 8).map fun i => if b.getLsbD i then 1 else 0
  else (List.range 4).map fun i => grayLevel (b.toNat / 4 ^ i % 4)

/-- R26: what the active lanes carry for a flit whose bytes are scrambled: physical lane and symbols, in logical order. -/
def laneSymbols (gen : Nat) (mask : BitVec 4) (bs : List Byte) : List (Nat × List Int) :=
  let ls := activeLanes mask
  (List.range ls.length).map fun l => (ls.getD l 0, (stripe ls.length l bs).flatMap (byteSymbols gen))

end Sys2Proof.Machine
end

