-- ==== Sys2Proof/Machine/Egress.lean ====
section
/-! DEFINITION. The transmit side of a port: flits (R34 to R37), the replay buffer (R41), credits (R47, R50), encryption
runs (R56), the messages that leave a port (R13, R89, R221) and their CXL forms (Table CXL-4), and the latency
histograms (R330). -/

namespace Sys2Proof.Machine
open Sys2Proof

/-! ## Counts per virtual channel -/

/-- The count of a virtual channel, numbered as CREDIT_AUDIT byte 1. -/
def vcGet (c : VcCount) (v : Nat) : Nat :=
  match v with | 0 => c.req | 1 => c.wb | 2 => c.snp | 3 => c.rsp | 4 => c.cmp | _ => c.mem

/-- The count of a virtual channel set. -/
def vcSet (c : VcCount) (v n : Nat) : VcCount :=
  match v with
  | 0 => { c with req := n } | 1 => { c with wb := n } | 2 => { c with snp := n } | 3 => { c with rsp := n }
  | 4 => { c with cmp := n } | _ => { c with mem := n }

/-- n added to the count of a virtual channel. -/
def vcAdd (c : VcCount) (v n : Nat) : VcCount := vcSet c v (vcGet c v + n)

/-- Two sets of counts added. -/
def vcSum (a b : VcCount) : VcCount := (List.range 6).foldl (fun c v => vcAdd c v (vcGet b v)) a

/-- n taken from the count of a virtual channel. -/
def vcSub (c : VcCount) (v n : Nat) : VcCount := vcSet c v (vcGet c v - n)

/-! ## Flits (R34 to R37) -/

/-- Table LNK-6: slots of a flit. -/
def slotsPerFlit : Nat → Nat | 1 => 4 | 2 => 6 | _ => 13

/-- Table LNK-6: bytes before the FEC. -/
def flitBody : Nat → Nat | 1 => 80 | 2 => 118 | _ => 244

/-- Table LNK-6: bytes of a flit. -/
def flitLen : Nat → Nat | 1 => 80 | 2 => 128 | _ => 256

/-- R37: the interleave byte i belongs to. -/
def interleaveOf (gen i : Nat) : Nat := if gen = 2 then (i % 2 + (i / 4) % 2) % 2 else i % 3

/-- R37: parity symbols of an interleave. -/
def parityCount : Nat → Nat | 2 => 5 | _ => 4

/-- R37: the byte positions of an interleave. -/
def interleavePos (gen r : Nat) : List Nat := (List.range (flitLen gen)).filter fun i => interleaveOf gen i == r

/-- R36: the CRC bytes of a flit, over its header and slot bytes. -/
def flitCrc (gen : Nat) (body : List Byte) : List Byte := leBytes (if gen = 1 then 6 else 8) (crc64 body)

/-- R35: the flit header. -/
def flitHeader (seq : Nat) (sqd : Bool) (cont : Nat) (phase : Bool) : List Byte :=
  leBytes 2 (seq % 1024 + (b2n sqd) * 2 ^ 10 + cont * 2 ^ 11 + (b2n phase) * 2 ^ 14)

/-- R37: the FEC bytes of a flit, given the bytes before them. -/
def flitFec (gen : Nat) (body : List Byte) : List Byte :=
  if gen = 1 then [] else
    let b := flitBody gen
    let par := fun r => rsParity (parityCount gen) (((interleavePos gen r).filter (· < b)).map fun i => (body.getD i 0).toNat)
    let p0 := par 0
    let p1 := par 1
    let p2 := if gen = 2 then [] else par 2
    (List.range (flitLen gen - b)).map fun j =>
      let i := b + j
      let r := interleaveOf gen i
      let idx := (List.range j).countP fun j' => interleaveOf gen (b + j') == r
      BitVec.ofNat 8 ((match r with | 0 => p0 | 1 => p1 | _ => p2).getD idx 0)

/-- R34: the bytes of a flit. -/
def encodeFlit (gen seq : Nat) (sqd : Bool) (cont : Nat) (phase : Bool) (slots : List (List Byte)) : List Byte :=
  let body := flitHeader seq sqd cont phase ++ padTo (18 * slotsPerFlit gen) (slots.flatMap (padTo 18))
  let body' := body ++ flitCrc gen body
  body' ++ flitFec gen body'

/-- R37, R38: the bytes of a flit after FEC decoding, and the symbols corrected; none when they cannot be corrected. -/
def fecDecode (gen : Nat) (bs : List Byte) : Option (List Byte × Nat) :=
  if gen = 1 then some (bs, 0) else
    (List.range (if gen = 2 then 2 else 3)).foldl (fun acc r =>
      match acc with
      | none => none
      | some (w, n) =>
        let pos := interleavePos gen r
        match rsDecode (parityCount gen) 2 (pos.map fun i => (w.getD i 0).toNat) with
        | .clean => some (w, n)
        | .bad => none
        | .corrected errs =>
          some (errs.foldl (fun w (k, v) => w.modify (pos.getD k 0) (· ^^^ BitVec.ofNat 8 v)) w, n + errs.length))
      (some (bs, 0))

/-! ## Sequenced flits -/

/-- R48: the CREDIT_INIT slot of a port, from the receive pools in force. -/
def creditSlot (op : Nat) (c : VcCount) : List Byte :=
  padTo 18 ([BitVec.ofNat 8 op, 0] ++ leBytes 2 c.req ++ leBytes 2 c.wb ++ leBytes 2 c.snp ++ leBytes 2 c.rsp ++
    leBytes 2 c.cmp ++ leBytes 2 c.mem)

/-- R49, Table LNK-10: the receive pools the configuration gives a port. -/
def cfgPools (s : State) (p : Fin 24) : VcCount :=
  if isMem s p then { mem := cfgGet s keyPoolMem p.val }
  else { req := cfgGet s keyPoolReq p.val, wb := cfgGet s keyPoolWb p.val, rsp := cfgGet s keyPoolRsp p.val }

/-- Table LNK-9: an ACK_NAK slot. -/
def ackSlot (eseq : Nat) (nak : Bool) : List Byte :=
  padTo 18 ([0xF0] ++ leBytes 2 (eseq % 1024 + (b2n nak) * 2 ^ 10))

/-- R26, R27: the bytes of a flit leave on the active lanes, scrambled, and count as sent (R28, R51). -/
def emitFlit (s : State) (p : Fin 24) (bytes : List Byte) : State :=
  let x := s.port p
  let r := scrambleFlit (activeLanes x.link.laneMask).length x.tx.scr bytes
  (s.updPort p fun x => { x with tx := { x.tx with scr := r.2, flits := x.tx.flits + 1, idleRun := x.tx.idleRun + 1 } }).emit
    (.flit p bytes (laneSymbols x.link.gen x.link.laneMask r.1))

/-- R393: the key of a direction and phase. -/
def keyOf (e : PortEnc) (receive phase : Bool) : Option LinkKey :=
  match receive, phase with
  | false, false => e.tx0 | false, true => e.tx1 | true, false => e.rx0 | true, true => e.rx1

/-- R394: the IV of a run. -/
def runIv (k : LinkKey) (run : Nat) : Nat := k.iv ^^^ (run % 2 ^ 64)

/-- R394: the transmitter erases its old key as it switches phase. -/
def dropTxKey (e : PortEnc) (phase : Bool) : PortEnc := if phase then { e with tx1 := none } else { e with tx0 := none }

/-- R34, R56: slots of a flit that messages and link-control slots may fill: a MAC slot that is due takes one. -/
def flitRoom (x : Port) : Nat := slotsPerFlit x.link.gen - (if x.enc.on then x.tx.macDue.length else 0)

/-- R39, R56: the slots of a flit with the MAC slot that is due, which stands behind the slots that continue a message. -/
def withMac (cont : Nat) (mac slots : List (List Byte)) : List (List Byte) := slots.take cont ++ mac ++ slots.drop cont

/-- R56: the slots of a sequenced flit with its header as sent: encrypted when encryption is on, MAC slots apart; the run
advances, and at its eighth flit its MAC, over the flit headers and the slots as sent, is due in the next sequenced flit. A new
phase begins at a run boundary (R394). A link that encrypts and holds no key has been taken down before (assumption 69). -/
def encryptFlit (x : Port) (cont : Nat) (slots : List (List Byte)) : List (List Byte) × Port :=
  if x.enc.on then
    match keyOf x.enc false x.tx.phase with
    | none => ([], x)
    | some k =>
      let full := (slots.map (padTo 18) ++ List.replicate 13 (List.replicate 18 (0 : Byte))).take (13 - x.tx.macDue.length)
      let c := Config.encrypt x.enc.algInForce k.key (runIv k x.tx.run) x.tx.runFlits full
      let run' := x.tx.runSlots ++ flitHeader x.tx.nextSeq true cont x.tx.phase :: c
      if x.tx.runFlits + 1 < 8 then
        (withMac cont x.tx.macDue c, { x with tx := { x.tx with runSlots := run', runFlits := x.tx.runFlits + 1, macDue := [] } })
      else
        let mac := padTo 18 ([0xF7, BitVec.ofNat 8 (b2n x.tx.phase)] ++ Config.macTag x.enc.algInForce k.key (runIv k x.tx.run) 8 run')
        let x1 := { x with tx := { x.tx with runSlots := [], runFlits := 0, macDue := [mac], run := x.tx.run + 1 } }
        (withMac cont x.tx.macDue c,
          if x.tx.phaseNext then
            { x1 with tx := { x1.tx with phase := !x.tx.phase, phaseNext := false, run := 0 }, enc := dropTxKey x1.enc x.tx.phase }
          else x1)
  else (slots, x)

/-- One sequenced flit with its slots: numbered, held for replay, sent (R35, R41). -/
def sendFlit (s : State) (p : Fin 24) (cont : Nat) (slots : List (List Byte)) : State :=
  let x := s.port p
  let phase := x.enc.on && x.tx.phase
  let (enc, x1) := encryptFlit x cont slots
  let seq := x1.tx.nextSeq
  let fl : TxFlit := { seq := seq, cont := cont, phase := phase, slots := enc }
  let x2 := { x1 with tx := { x1.tx with nextSeq := (seq + 1) % 1024, replay := x1.tx.replay ++ [fl] } }
  emitFlit (s.updPort p fun _ => x2) p (encodeFlit x.link.gen seq true cont phase enc)

/-- R39: the flit being packed is sent as it stands, its other slots NOP. -/
def endFlit (s : State) (p : Fin 24) : State :=
  let x := s.port p
  if x.tx.packed.isEmpty then s
  else sendFlit (s.updPort p fun x => { x with tx := { x.tx with packed := [], packedCont := 0 } }) p x.tx.packedCont x.tx.packed

/-- R35, R39: an idle flit, which carries only NOP and ACK_NAK slots; its KEY_PHASE is 0 with encryption off. A flit being packed
goes before it, so that no data slots are owed. -/
def sendIdle (s0 : State) (p : Fin 24) (slots : List (List Byte)) : State :=
  let s := endFlit s0 p
  let x := s.port p
  (emitFlit s p (encodeFlit x.link.gen x.tx.nextSeq false 0 (x.enc.on && x.tx.phase) slots)).updPort p fun x =>
    { x with tx := { x.tx with idleRun := 0 } }

/-- R28, R39: before n flits that may hold no idle flit between them, an idle flit is sent if 2,048 would pass without one. -/
def idleBefore (s : State) (p : Fin 24) (n : Nat) : State :=
  if 2047 < (s.port p).tx.idleRun + n then sendIdle s p [] else s

/-- R39: the slots of a message join the flit being packed, in ascending slot number; a flit that is full is sent, and the slots
that are left continue at slot 0 of the next, counted in CONT. -/
def packSlots (s : State) (p : Fin 24) : Nat → List (List Byte) → Bool → State
  | 0, _, _ => s
  | fuel + 1, slots, begun =>
    let x := s.port p
    let room := flitRoom x - x.tx.packed.length
    let now := slots.take room
    let s1 := s.updPort p fun x => { x with tx := { x.tx with
      packed := x.tx.packed ++ now, packedCont := if begun then now.length else x.tx.packedCont } }
    if slots.length < room then s1
    else if slots.length = room then endFlit s1 p
    else packSlots (endFlit s1 p) p fuel (slots.drop room) (begun || !now.isEmpty)

/-- R48: the first sequenced flit after ACTIVE is entered from VERIFY begins with CREDIT_INIT. -/
def placeInit (s : State) (p : Fin 24) : State :=
  if (s.port p).link.fromVerify then
    packSlots (s.updPort p fun x => { x with link := { x.link with fromVerify := false } }) p 2 [creditSlot 0xF1 (s.port p).rx.pools] false
  else s

/-- R39, R42: a flit that begins carries the acknowledgement that is due in its first slot. -/
def placeAck (s : State) (p : Fin 24) : State :=
  if (s.port p).tx.packed.isEmpty && decide (0 < (s.port p).rx.unacked) then
    packSlots (s.updPort p fun x => { x with rx := { x.rx with unacked := 0 } }) p 2 [ackSlot (s.port p).rx.eseq false] false
  else s

/-- R39, R48: the slots of one message, or a link-control slot, packed into the sequenced flits of a port. -/
def sendSlots (s : State) (p : Fin 24) (slots : List (List Byte)) : State :=
  packSlots (placeAck (placeInit (idleBefore s p 3) p) p) p 6 slots false

/-- R41: the replay buffer has room for every flit that n slots need, behind those being packed. -/
def replayRoom (x : Port) (n : Nat) : Bool :=
  decide (x.tx.replay.length + (x.tx.packed.length + n + flitRoom x - 1) / flitRoom x ≤ 512)

/-- R39, R41: a link-control slot placed in a sequenced flit, or kept in its order until the replay buffer has room. -/
def placeCtl (s : State) (p : Fin 24) (slot : List Byte) : State :=
  if (s.port p).tx.ctlQ.isEmpty && replayRoom (s.port p) 1 then endFlit (sendSlots s p [slot]) p
  else s.updPort p fun x => { x with tx := { x.tx with ctlQ := x.tx.ctlQ ++ [slot] } }

/-- R47, R258: slots of a channel held in the receive buffer. -/
def rxHeld (x : PortRx) (v : Nat) : Nat := vcGet x.rcvd v - vcGet x.retSent v - vcGet x.due v

/-- An Olilek port carries flits now. -/
def flowing (s : State) (p : Fin 24) : Bool := isOlk s p && (s.port p).link.state == .active

/-- R50: a CREDIT_RETURN with every credit due; the REQ credits of a peer port that drains for MAINT are held back
(R302). -/
def returnCredits (s : State) (p : Fin 24) : State :=
  let x := s.port p
  let back := x.link.draining && isPeer s p
  let d := if back then { x.rx.due with req := 0 } else x.rx.due
  if flowing s p && replayRoom x 1 && d != {} then
    let s1 := s.updPort p fun x => { x with rx := { x.rx with
      retSent := vcSum x.rx.retSent d, shRetSent := vcSum x.rx.shRetSent d,
      due := if back then { req := x.rx.due.req } else {} } }
    endFlit (sendSlots s1 p [creditSlot 0xF2 d]) p
  else s

/-- R191, R257: one message of a class sent or received, which uses a credit. -/
def cxlUse (c : CxlCredit) : CxlCredit := { c with avail := c.avail - 1, sent := c.sent + 1, shSent := c.shSent + 1 }

/-- R191, R257: credits of a class returned. -/
def cxlGive (c : CxlCredit) (n : Nat) : CxlCredit := { c with avail := c.avail + n, ret := c.ret + n, shRet := c.shRet + n }

/-- R191: the credits due of a class are returned. -/
def giveBack (c : CxlCredit) : CxlCredit := { cxlGive c c.due with due := 0 }

/-- R203, R395: the messages of the port's link are delivered only after their MAC checks: the cachemem stream has its receive key. -/
def ideOn (c : PortCxl) : Bool := c.ideKeys.any fun k => k.1 == 1 && k.2.1 == 1

/-- R191: credits return to the CXL host; those of Req and RwD wait while the tag map is full. -/
def cxlReturn (c : PortCxl) : PortCxl :=
  let c1 := { c with m2sBiRsp := giveBack c.m2sBiRsp }
  if 4096 ≤ c1.tagMap.length then c1 else { c1 with m2sReq := giveBack c1.m2sReq, m2sRwd := giveBack c1.m2sRwd }

/-- R50: n receive-buffer slots of a channel are freed; 16 credits due of one channel are returned. -/
def freeRx (s : State) (p : Fin 24) (v n : Nat) : State :=
  if isOlk s p then
    let s1 := s.updPort p fun x => { x with rx := { x.rx with due := vcAdd x.rx.due v n } }
    let x := s1.port p
    if decide (16 ≤ vcGet x.rx.due v) && !(x.link.draining && v == 0) then returnCredits s1 p else s1
  else
    s.updPort p fun x =>
      let c := x.cxl
      { x with cxl := cxlReturn (if v = 3 then { c with m2sBiRsp := { c.m2sBiRsp with due := c.m2sBiRsp.due + 1 } }
        else if n = 5 then { c with m2sRwd := { c.m2sRwd with due := c.m2sRwd.due + 1 } }
        else { c with m2sReq := { c.m2sReq with due := c.m2sReq.due + 1 } }) }

/-! ## Messages that leave a port -/

/-- R47: credits of the channel are held for the message, and its flits have room (R41); on a CXL port, credits of the
classes its translation uses are held (R191). -/
def canPlace (s : State) (p : Fin 24) (o : Op) : Bool :=
  let x := s.port p
  if isOlk s p then
    flowing s p && x.rx.initSeen && decide (opSlots o ≤ vcGet x.tx.avail (opVc o)) && replayRoom x (opSlots o)
  else if isPeer s p then
    x.cxl.up &&
    (match o with
     | .snpInv | .snpShare | .snpRecall => decide (1 ≤ x.cxl.s2mBiSnp.avail)
     | .dataI => decide (1 ≤ x.cxl.s2mDrs.avail ∧ (personality s p = .peerCxl2 ∨ 1 ≤ x.cxl.s2mNdr.avail))
     | .dataS | .dataE | .cmpErr => decide (1 ≤ x.cxl.s2mDrs.avail ∧ 1 ≤ x.cxl.s2mNdr.avail)
     | _ => decide (1 ≤ x.cxl.s2mNdr.avail))
  else (s.port p).cxl.up

/-- R195: the DPA of a fabric byte address in a port's layout. -/
def dpaOfFabric (layout : List (Nat × Nat × Nat)) (a : Nat) : Option Nat :=
  match layout with
  | [] => none
  | (_, base, size) :: rest =>
    if base ≤ a ∧ a < base + size then some (a - base) else (dpaOfFabric rest a).map (· + size)

/-- R195: the fabric byte address of a DPA in a port's layout. -/
def fabricOfDpa (layout : List (Nat × Nat × Nat)) (d : Nat) : Option Nat :=
  match layout with
  | [] => none
  | (_, base, size) :: rest => if d < size then some (base + d) else fabricOfDpa rest (d - size)

/-- R195: the HPA that the committed decoders map to a DPA. -/
def hpaOfDpa (ds : List HdmDecoder) (start d : Nat) : Option Nat :=
  match ds with
  | [] => none
  | x :: rest =>
    if x.committed then
      if start ≤ d ∧ d < start + x.size then some (x.base + (d - start)) else hpaOfDpa rest (start + x.size) d
    else none

/-- R195: the DPA that the committed decoders map an HPA to. -/
def dpaOfHpa (ds : List HdmDecoder) (start a : Nat) : Option Nat :=
  match ds with
  | [] => none
  | x :: rest =>
    if x.committed then
      if x.base ≤ a ∧ a < x.base + x.size then some (start + (a - x.base)) else dpaOfHpa rest (start + x.size) a
    else none

/-- R200: an event record in a port's Failure log, signalled by the configured interrupt. Kinds: 1 refused write, 2
snoop timeout of the host, 3 poison delivered. -/
def cxlFailure (s : State) (p : Fin 24) (kind line : Nat) : State :=
  let c := (s.port p).cxl
  let e : CxlEvent := { handle := c.evHandle, kind := kind, addr := line, time := c.timestamp + (nowNs s - c.tsSetAt) }
  let s1 := s.updPort p fun x => { x with cxl := { x.cxl with
    evFail := if x.cxl.evFail.length < 64 then x.cxl.evFail ++ [e] else x.cxl.evFail, evHandle := x.cxl.evHandle + 1,
    evLost := if x.cxl.evFail.length < 64 then x.cxl.evLost
      else (x.cxl.evLost.1 + 1, if x.cxl.evLost.1 = 0 then e.time else x.cxl.evLost.2.1, e.time) } }
  if c.evPolicy.getD 2 0 = 0 then s1 else s1.emit (.cxl p "EventInterrupt" 2 0 0 false 0)

/-- One message of the S2M NDR class. -/
def sendNdr (s : State) (p : Fin 24) (name : String) (tag : Nat) : State :=
  (s.updPort p fun x => { x with cxl := { x.cxl with s2mNdr := cxlUse x.cxl.s2mNdr } }).emit
    (.cxl p name tag 0 0 false 0)

/-- One message of the S2M DRS class. -/
def sendDrs (s : State) (p : Fin 24) (name : String) (tag : Nat) (d : Line) (poison : Bool) : State :=
  (s.updPort p fun x => { x with cxl := { x.cxl with s2mDrs := cxlUse x.cxl.s2mDrs } }).emit
    (.cxl p name tag 0 d poison 0)

/-! ## The crossbar queues of a port (R12) -/

/-- R221: the epochs a message for an agent on a port records now. -/
def epochsFor (s : State) (p : Fin 24) (agent : Nat) : Epochs := { port := (s.port p).epoch, agent := (s.bind agent).epoch }

/-- The crossbar queue of a channel at a port. -/
def vcQueue (x : Port) (v : Nat) : List RxMsg := match v with | 0 => x.reqQ | 1 => x.wbQ | _ => x.rspQ

/-- The crossbar queue of a channel at a port replaced. -/
def setQueue (x : Port) (v : Nat) (q : List RxMsg) : Port :=
  match v with | 0 => { x with reqQ := q } | 1 => { x with wbQ := q } | _ => { x with rspQ := q }

/-- A message of an agent as a port queues it. -/
def rxMsg (s : State) (p : Fin 24) (op : Op) (h : Hdr) (d : Line) (metaw : Mask) : RxMsg :=
  { op := op, src := h.src, dest := h.dest, tag := h.tag, laddr := h.laddr,
    attr := h.attr &&& attrPermitted op &&& (if (s.port p).rx.tsEnabled then 0xFF else 0xF7), aop := h.aop, size := h.size, ts := h.ts,
    data := d, be := if opMaskForm op then metaw else BitVec.allOnes 64, poison := payloadPoison op h.attr metaw,
    slice := sliceOf h.laddr, position := (s.port p).rx.position, arrived := s.obs.cycles, epochs := epochsFor s p h.src }

/-- A message joins its crossbar queue, with the next receive position. -/
def enqueueMsg (s : State) (p : Fin 24) (m : RxMsg) : State :=
  s.updPort p fun x =>
    let x1 := setQueue x (opVc m.op) (vcQueue x (opVc m.op) ++ [m])
    { x1 with rx := { x1.rx with position := x1.rx.position + 1 } }

/-- R198: BIConflicts with nothing ahead of them are answered, as far as NDR credits allow. -/
def answerConflicts (p : Fin 24) : Nat → State → State
  | 0, s => s
  | n + 1, s =>
    let c := (s.port p).cxl
    match c.conflicts.find? fun e => e.2.2 == 0 with
    | some e =>
      if c.s2mNdr.avail = 0 then s
      else answerConflicts p n (sendNdr (s.updPort p fun x => { x with cxl := { x.cxl with conflicts := removeFirst e x.cxl.conflicts } }) p "BIConflictAck" e.2.1)
    | none => s

/-- R198: a message queued for a line has left a CXL port: the BIConflicts behind it move up. -/
def afterLine (s : State) (p : Fin 24) (line : Nat) : State :=
  let s1 := s.updPort p fun x => { x with cxl := { x.cxl with
    conflicts := x.cxl.conflicts.map fun e => if e.1 = line then (e.1, e.2.1, e.2.2 - 1) else e } }
  answerConflicts p (s1.port p).cxl.conflicts.length s1

/-- R191, R198: the completion of a CXL host's message has left, or was sumped: its internal TAG is free. -/
def cxlDone (s : State) (p : Fin 24) (m : OutMsg) : State :=
  afterLine (s.updPort p fun x => { x with
    cxl := cxlReturn { x.cxl with tagMap := x.cxl.tagMap.filter fun e => e.1 != m.tag } }) p m.laddr

/-- R199: a BIRsp of a CXL host goes to the crossbar as the response to its snoop. -/
def forwardBiRsp (s : State) (p : Fin 24) (op : Op) (line a : Nat) : State :=
  let c := (s.port p).cxl
  let tag := match c.biSnp.find? (·.1 == line) with | some e => e.2 | none => 0
  let s1 := s.updPort p fun x => { x with cxl := { x.cxl with
    biSnp := match x.cxl.biSnp.find? (·.1 == line) with | some e => removeFirst e x.cxl.biSnp | none => x.cxl.biSnp } }
  let h : Hdr := { src := a, dest := ownIndex s, tag := tag, laddr := line }
  enqueueMsg s1 p (rxMsg s1 p op h 0 0)

/-- R199: WB_ACK has been sent for the write-back with an internal TAG; the BIRsps that waited for it are forwarded. -/
def wbAckSent (s : State) (p : Fin 24) (tag : Nat) : State :=
  let s1 := s.updPort p fun x => { x with cxl := { x.cxl with wbOut := x.cxl.wbOut.filter fun e => e.2 != tag } }
  let free := (s1.port p).cxl.heldBi.filter fun e => !((s1.port p).cxl.wbOut.any fun w => w.1 == e.1)
  free.foldl (fun s e =>
    forwardBiRsp (s.updPort p fun x => { x with cxl := { x.cxl with heldBi := removeFirst e x.cxl.heldBi } }) p e.2 e.1 (((s.port p).cxl.bound).getD 0)) s1

/-- Table CXL-4: a home message toward a CXL host. -/
def cxlOut (s : State) (p : Fin 24) (m : OutMsg) : State :=
  let c := (s.port p).cxl
  let cxl3 := personality s p == .peerCxl3
  let tag := match c.tagMap.find? fun e => e.1 == m.tag with | some e => e.2 | none => m.tag
  let done := fun (s : State) => cxlDone s p m
  let isRead := m.reqOp == 0x10 || m.reqOp == 0x11 || m.reqOp == 0x12
  let poisonNote := fun (s : State) => if m.poison then cxlFailure s p 3 m.laddr else s
  match m.op with
  | .snpShare | .snpInv | .snpRecall =>
    let hpa := ((c.layout.bind fun l => dpaOfFabric l (m.laddr * 64)).bind fun d => hpaOfDpa c.decoders.toList 0 d).getD 0
    (s.updPort p fun x => { x with cxl := { x.cxl with
      biSnp := x.cxl.biSnp ++ [(m.laddr, m.tag)],
      s2mBiSnp := cxlUse x.cxl.s2mBiSnp } }).emit
      (.cxl p (if m.op == .snpShare then "BISnpData" else "BISnpInv") m.tag hpa 0 false 0)
  | .dataS => done (poisonNote (sendNdr (sendDrs s p "MemData" tag m.data m.poison) p "Cmp-S" tag))
  | .dataE => done (poisonNote (sendNdr (sendDrs s p "MemData" tag m.data m.poison) p "Cmp-E" tag))
  | .dataI =>
    let s1 := sendDrs s p "MemData" tag m.data m.poison
    done (poisonNote (if cxl3 then sendNdr s1 p "Cmp" tag else s1))
  | .grantE => done (sendNdr s p "Cmp-E" tag)
  | .wbAck =>
    done (wbAckSent (sendNdr s p "Cmp" tag) p m.tag)
  | .cmpErr =>
    if isRead then
      if m.aop = 2 ∨ m.aop = 4 then
        done (if cxl3 then sendDrs s p "MemData-NXM" tag 0 false else cxlFailure (sendDrs s p "MemData" tag 0 true) p 3 m.laddr)
      else
        let s1 := cxlFailure (sendDrs s p "MemData" tag 0 true) p 3 m.laddr
        done (if cxl3 then sendNdr s1 p "Cmp" tag else s1)
    else if m.reqOp = 0x13 then done (sendNdr s p "Cmp-S" tag)
    else done (cxlFailure (sendNdr s p "Cmp" tag) p 1 m.laddr)
  | _ => done (sendNdr s p "Cmp" tag)

/-- R63: the low 32 bits of domain time in ns, for TS and DATA_TIME; 0 while domain time is not valid. -/
def tsNow (s : State) : Nat := if s.dom.timeValid then domNs s % 2 ^ 32 else 0

/-- R60 to R65: the slots of a message of the home. -/
def outSlots (s : State) (p : Fin 24) (m : OutMsg) : List (List Byte) :=
  let ts := (s.port p).rx.tsEnabled
  let attr := (m.attr &&& 0xF3) ||| (if m.poison then 0x04 else 0) ||| (if ts then 0x08 else 0)
  let h : Hdr := { src := ownIndex s, dest := m.dest, tag := m.tag, laddr := m.laddr, attr := attr, aop := m.aop,
                   size := m.size, ts := if ts then tsNow s else 0 }
  encodeHdr m.op h :: (if opHasData m.op then encodeData m.data (b2n m.poison + m.taken * 2 ^ 32) else [])

/-- Table OBS-5: the histogram class of a request opcode. -/
def histClass (op : Nat) : Option Nat :=
  match op with
  | 0x10 => some 0 | 0x11 | 0x13 => some 1 | 0x12 => some 2 | 0x18 | 0x19 => some 3 | 0x1A => some 4 | 0x14 => some 5
  | _ => none

/-- R329: the bin of a latency in ns. -/
def histBin (l : Nat) : Nat := if l < 2 then 0 else min l.log2 31

/-- R329: one more in a bin of a port and class, in histogram mode. -/
def histAdd (s : State) (p cls l : Nat) : State :=
  if s.obs.histMode then { s with obs := { s.obs with hist := bump4 s.obs.hist p cls (histBin l) 1 } } else s

/-- R330: the completion of a request counted in its port's histogram. -/
def histCmp (s : State) (p : Fin 24) (m : OutMsg) : State :=
  match histClass m.reqOp with
  | none => s
  | some cls =>
    if m.sumped then s
    else if isOlk s p && (s.port p).histE2e then
      match m.reqTs with
      | some ts =>
        let l := (tsNow s + 2 ^ 32 - ts) % 2 ^ 32
        if l < 2 ^ 31 then histAdd s p cls l else countEv s 0x020B p
      | none => countEv s 0x020B p
    else histAdd s p cls ((s.obs.cycles - m.arrived) / 2)

/-- R221, R60: a message of the home placed at its port: its credits are used, it is traced and counted. -/
def placeMsg (s : State) (p : Fin 24) (m : OutMsg) : State :=
  let n := opSlots m.op
  let slots := outSlots s p m
  let k := sliceOf m.laddr
  let part := partOf s m.laddr
  let s1 := traceRecord s 2 { line := some m.laddr, opcode := opCode m.op, agent := some m.dest, part := part }
    (traceMsgBody (ofLe (slots.headD [])) p k part)
  let s2 := countEv s1 0x0202 p { opcode := some (opCode m.op), agent := some m.dest } n
  if isOlk s2 p then
    let v := opVc m.op
    sendSlots (s2.updPort p fun x => { x with tx := { x.tx with
      avail := vcSub x.tx.avail v n, sent := vcAdd x.tx.sent v n, shSent := vcAdd x.tx.shSent v n } }) p slots
  else cxlOut s2 p m

/-- R221: both epochs a message to an agent recorded still hold at its port. -/
def outFresh (s : State) (p : Fin 24) (m : OutMsg) : Bool :=
  m.epochs.port == (s.port p).epoch && m.epochs.agent == (s.bind m.dest).epoch

/-- R224: a message counted in the sump of a port. -/
def sumpCount (s : State) (p : Fin 24) (agent : Nat) : State :=
  countEv (s.updPort p fun x => { x with sumpMsgs := x.sumpMsgs + 1 }) 0x0207 p { agent := some agent }

/-- Table LNK-9: the CREDIT_AUDIT slot of a channel. -/
def auditSlot (x : Port) (v : Nat) : List Byte :=
  padTo 18 ([0xF3] ++ leBytes 1 v ++ leBytes 4 (vcGet x.tx.sent v) ++ leBytes 4 (vcGet x.tx.retRcvd v) ++ leBytes 2 (vcGet x.tx.avail v) ++
    leBytes 2 (vcGet x.tx.pools v))

/-- R47: the home sends on a channel of the port. -/
def homeSends (s : State) (p : Fin 24) (v : Nat) : Bool := if isMem s p then v == 5 else v == 2 || v == 4

/-- R51, R53: audits that are due leave in the first sequenced flit that has room for them all, with the counts of that place, once
the replay buffer has space. -/
def placeAudits (s : State) (p : Fin 24) : State :=
  let vs := (List.range 6).filter (homeSends s p)
  if flowing s p && (s.port p).tx.auditDue && (s.port p).rx.initSeen && replayRoom (s.port p) vs.length then
    let s1 := if (s.port p).tx.packed.length + vs.length ≤ flitRoom (s.port p) then s else endFlit s p
    endFlit (vs.foldl (fun s v => sendSlots s p [auditSlot (s.port p) v])
      (s1.updPort p fun x => { x with tx := { x.tx with auditDue := false } })) p
  else s

/-- R39, R41: link-control slots that waited leave in their order as the replay buffer has room. -/
def drainCtlFuel (s : State) (p : Fin 24) : Nat → State
  | 0 => s
  | fuel + 1 =>
    match (s.port p).tx.ctlQ with
    | [] => s
    | c :: rest =>
      if flowing s p && replayRoom (s.port p) 1 then
        drainCtlFuel (endFlit (sendSlots (s.updPort p fun x => { x with tx := { x.tx with ctlQ := rest } }) p [c]) p) p fuel
      else s

/-- R13, R47: SNP messages leave in order while credits and room allow; one whose epoch no longer matches is sumped. -/
def drainSnpFuel (s : State) (p : Fin 24) : Nat → State
  | 0 => s
  | fuel + 1 =>
    match (s.port p).tx.snpQ with
    | [] => s
    | m :: rest =>
      let pop := fun (s : State) => s.updPort p fun x => { x with tx := { x.tx with snpQ := rest } }
      if !(outFresh s p m) then drainSnpFuel (sumpCount (pop s) p m.dest) p fuel
      else if canPlace s p m.op then drainSnpFuel (placeMsg (pop s) p m) p fuel
      else s

/-- R13: what waits at a port beside its CMP and MEM messages leaves as far as it can: link-control slots, audits, SNP messages. -/
def drainSnp (s : State) (p : Fin 24) : State :=
  let s1 := placeAudits (drainCtlFuel s p (s.port p).tx.ctlQ.length) p
  endFlit (drainSnpFuel s1 p (s1.port p).tx.snpQ.length) p

/-- R39: the flit being packed is sent, unless the next completion at the port can join it (assumption 71). -/
def joinFlit (s : State) (p : Fin 24) : State :=
  match (s.port p).tx.cmpQ with
  | m :: _ => if outFresh s p m && canPlace s p m.op then s else endFlit s p
  | [] => endFlit s p

/-- A CMP message handed to a port's egress. -/
def pushCmp (s : State) (p : Fin 24) (m : OutMsg) : State :=
  s.updPort p fun x => { x with tx := { x.tx with cmpQ := x.tx.cmpQ ++ [m] } }

/-- The port of an agent, when its binding names one. -/
def agentPort (s : State) (a : Nat) : Option (Fin 24) := bindPort s a

end Sys2Proof.Machine
end

