-- ==== Sys2Proof/Machine/HbmAccess.lean ====
section
/-! DEFINITION. Accesses of device HBM: their activation under refresh management (R161), the order in which an HBM controller serves
those that wait (R186), and lines held in three copies (R172, R237). -/

namespace Sys2Proof.Machine
open Sys2Proof

/-- The HBM changed. -/
def State.updHbm (s : State) (f : Hbm → Hbm) : State := { s with hbm := f s.hbm }

/-! ## HBM accesses (R161, Table OBS-1) -/

/-- The number of a bank within its stack: pseudo-channel, SID, bank group, bank address. -/
def bankNumber (s : State) (ha : Nat) : Nat :=
  let (sid, ba, bg, _, _) := bankOf s.fuses.is144 ha
  ((pcOf ha * 4 + sid) * 4 + bg) * 4 + ba

/-- R19: the stack of an HBM address, as an index. -/
def stackFin (ha : Nat) : Fin 4 := ⟨stackOf ha % 4, Nat.mod_lt _ (by decide)⟩

/-- A stack changed. -/
def State.updStack (s : State) (i : Fin 4) (f : Stack → Stack) : State :=
  s.updHbm fun h => { h with stk := h.stk.set i (f h.stk[i]) }

/-- R161: RAA of a bank of a stack. -/
def raaOf (x : Stack) (bank : Nat) : Nat := match x.raa.find? (·.1 == bank) with | some (_, n) => n | none => 0

/-- RAA of a bank set; zero is not listed. -/
def setRaa (x : Stack) (bank n : Nat) : Stack :=
  let rest := x.raa.filter (·.1 != bank)
  { x with raa := if n = 0 then rest else rest ++ [(bank, n)] }

/-- R184, R186: the weight of a partition; that of partition 0 is fixed. -/
def partWeight (s : State) (part : Nat) : Nat := if part = 0 then 255 else cfgGet s keyWeight part

/-- R17: an HBM address of cache data. -/
def isCacheData (s : State) (ha : Nat) : Bool := decide (cacheBase ≤ ha ∧ ha < cacheBase + hankCount s.fuses.is144 * 4096)

/-- R161: an access of a stack activates its bank, or waits while RAA stands at RAAMMT or an earlier access of the bank waits. -/
def activate (s : State) (i : Fin 4) (a : HeldAccess) : State :=
  let x := s.hbm.stk[i]
  if x.raammt ≤ raaOf x a.bank || x.held.any (·.bank == a.bank) then s.updStack i fun x => { x with held := x.held ++ [a] }
  else countEv (s.updStack i fun x => setRaa x a.bank (raaOf x a.bank + 1)) 0x0303 i

/-- R161: an access that waited activates its bank, while RAAMMT allows it; false when it does not. -/
def activateOne (s : State) (i : Fin 4) (a : HeldAccess) : State × Bool :=
  let x := s.hbm.stk[i]
  if x.raammt ≤ raaOf x a.bank then (s, false)
  else (countEv (s.updStack i fun x => { setRaa x a.bank (raaOf x a.bank + 1) with held := removeFirst a x.held }) 0x0303 i, true)

/-- R186: the deficit of a partition at an HBM controller. -/
def hbmDeficit (x : Stack) (part : Nat) : Nat := match x.deficit.find? (·.1 == part) with | some d => d.2 | none => 0

/-- R186: the deficit of a partition set; zero is not listed, and one without accesses waiting has none. -/
def setHbmDeficit (s : State) (i : Fin 4) (part d : Nat) : State :=
  let n := if s.hbm.stk[i].held.any fun a => a.part == part && isCacheData s a.ha then d else 0
  s.updStack i fun x => { x with
    deficit := if n = 0 then x.deficit.filter (·.1 != part) else upsert (·.1 == part) (part, n) x.deficit, lastServed := part }

/-- R186: the metadata accesses that wait for a bank are taken before any cache-data access, and are not charged. -/
def serveMeta (s : State) (i : Fin 4) (bank : Nat) : State :=
  (s.hbm.stk[i].held.filter fun a => a.bank == bank && !(isCacheData s a.ha)).foldl (fun s a => (activateOne s i a).1) s

/-- R186: the cache-data accesses of a partition that wait for a bank are served while its deficit allows, at 4 units each. -/
def serveData (i : Fin 4) (bank part : Nat) : Nat → State → State
  | 0, s => s
  | n + 1, s =>
    let d := hbmDeficit s.hbm.stk[i] part
    match s.hbm.stk[i].held.find? fun a => a.bank == bank && a.part == part && isCacheData s a.ha with
    | none => s
    | some a =>
      if d < 4 then s
      else
        let r := activateOne s i a
        if r.2 then serveData i bank part n (setHbmDeficit r.1 i part (d - 4)) else s

/-- R186: one round over the partitions whose cache-data accesses wait for a bank, after the one served last, ascending cyclic. -/
def hbmRound (i : Fin 4) (bank : Nat) (s : State) : State :=
  let x := s.hbm.stk[i]
  let ps := (((x.held.filter fun a => a.bank == bank && isCacheData s a.ha).map (·.part)).eraseDups).mergeSort (· ≤ ·)
  (ps.filter (fun q => decide (x.lastServed < q)) ++ ps.filter (fun q => decide (q ≤ x.lastServed))).foldl (fun s part =>
    serveData i bank part s.hbm.stk[i].held.length (setHbmDeficit s i part (hbmDeficit s.hbm.stk[i] part + 4 * partWeight s part))) s

/-- As many rounds as accesses wait, until RAAMMT holds the bank again. -/
def hbmRounds (i : Fin 4) (bank : Nat) : Nat → State → State
  | 0, s => s
  | n + 1, s =>
    if s.hbm.stk[i].raammt ≤ raaOf s.hbm.stk[i] bank || !(s.hbm.stk[i].held.any (·.bank == bank)) then s else hbmRounds i bank n (hbmRound i bank s)

/-- R161, R186: refresh management of a bank has lowered its RAA: the accesses that waited are activated as far as RAAMMT allows. -/
def activateHeld (s : State) (i : Fin 4) (bank : Nat) : State :=
  let s1 := serveMeta s i bank
  hbmRounds i bank s1.hbm.stk[i].held.length s1

/-- R253: the entry of the bank relocation table for an HBM address below the cache data of an excluded bank. -/
def relocEntry (s : State) (ha : Nat) : Option Nat :=
  let (sid, ba, _, row, _) := bankOf s.fuses.is144 ha
  if ha < cacheBase then (s.hbm.banks.findIdx? (· == (stackOf ha, pcOf ha, sid, ba))).map fun i => i * 8192 + row else none

/-- R253: the spare block that a block is relocated to, and its entry. -/
def relocOf (s : State) (ha : Nat) : Option (Nat × Nat) := (relocEntry s ha).bind fun n => s.hbm.reloc.find? (·.1 == n)

/-- R253: where the controllers hold the line of an HBM address: in the spare block of a relocated block. -/
def placeOf (s : State) (ha : Nat) : Nat := match relocOf s ha with | some x => x.2 * 4096 + ha % 4096 | none => ha

/-- R161: an access at an HBM address still waits for its activation. -/
def hbmHeld (s : State) (ha : Nat) : Bool := s.hbm.stk[stackFin (placeOf s ha)].held.any (·.ha == placeOf s ha)

/-- R245: a write of an HBM line waits behind the accesses of its bank. -/
def writeQueued (s : State) (ha : Nat) : Bool :=
  s.hbm.stk[stackFin (placeOf s ha)].held.any fun a => a.ha == placeOf s ha && a.write

/-- One line access at an HBM address: its activation is counted in RAA, and the access in the stack's events. -/
def hbmIssue (s : State) (ha part : Nat) (write : Bool) : State :=
  let i := stackFin ha
  countEv (activate s i { bank := bankNumber s ha, ha := ha, part := part, write := write }) (if write then 0x0302 else 0x0301) i { part := some part }

/-- R17: the first block of the retirement spares, which end at the top of HBM. -/
def spareStart (is144 : Bool) : Nat := (cacheBase + hankCount is144 * 4096) / 4096

/-- R253: the place of line n of copy c of the relocation table. -/
def relocCopy (is144 : Bool) (n c : Nat) : Nat := (spareStart is144 + 4 * (n / 64) + c) * 4096 + n % 64 * 64

/-- R253: a controller looks up a relocation entry: a miss of its cache reads the table's three copies (R237). -/
def relocLook (s : State) (i : Fin 4) (entry : Nat) : State :=
  if s.hbm.stk[i].relocCache.contains entry then s
  else
    ((List.range 3).foldl (fun s c => hbmIssue s (relocCopy s.fuses.is144 (entry / 16) c) 0 false) s).updStack i fun x => { x with
      relocCache := (entry :: x.relocCache).take 1024 }

/-- R244: a write of a line removes its repeat-correct entry. -/
def rctForget (s : State) (hbm : Bool) (port addr : Nat) : State :=
  { s with prot := { s.prot with rct := s.prot.rct.filter fun e => !(e.hbm == hbm && e.addr == addr && (hbm || e.port == port)) } }

/-- R253: an access of the line that an HBM address names, at the place where it is held. -/
def hbmPlaced (s : State) (ha part : Nat) (write : Bool) : State :=
  match relocOf s ha with
  | some x => hbmIssue (relocLook s (stackFin ha) x.1) (placeOf s ha) part write
  | none => hbmIssue s ha part write

/-- An access of a line of HBM; a write removes the line's repeat-correct entry (R244). -/
def hbmAccess (s : State) (ha part : Nat) (write : Bool) : State :=
  let s1 := hbmPlaced s ha part write
  if write then rctForget s1 true 0 (placeOf s ha / 64 * 64) else s1

/-! ## Lines in three copies (R172, R237) -/

/-- R237: a write of a TRIPLE line of HBM updates all three copies. -/
def tripleWrite (s : State) (copy : Nat → Nat) (d : Line) : State :=
  (List.range 3).foldl (fun s c =>
    hbmAccess (s.updHbm fun h => { h with mem := h.mem.writeLine (copy c) d, poisoned := h.poisoned.filter (· != copy c / 64) }) (copy c) 0 true) s

/-- R236, R237: the value of a TRIPLE line of HBM: the one that two copies agree on which are not among those that cannot be
corrected. -/
def tripleValue (s : State) (copy : Nat → Nat) (bad : List Nat) : Option (Line × Bool) :=
  let value := fun (c : Nat) => (s.hbm.mem.readLine (copy c), s.hbm.poisoned.contains (copy c / 64))
  let good := (List.range 3).filter fun c => !(bad.contains (copy c))
  (good.find? fun c => good.any fun d => d != c && value d == value c).map value

/-- R236, R237: a TRIPLE line of HBM is read from its three copies and voted; the minority is rewritten in place, and all three are
rewritten poisoned when no two agree. -/
def tripleRead (s : State) (copy : Nat → Nat) (bad : List Nat) : State :=
  let s1 := (List.range 3).foldl (fun s c => hbmAccess s (copy c) 0 false) s
  let addr := some (2, copy 0)
  match tripleValue s copy bad with
  | none =>
    let s2 := tripleWrite (logClass s1 0x07 2 (stackOf (copy 0)) addr) copy 0
    s2.updHbm fun h => { h with poisoned := h.poisoned ++ (List.range 3).map fun c => copy c / 64 }
  | some (d, p) =>
    let wrong := (List.range 3).filter fun c =>
      bad.contains (copy c) || s.hbm.mem.readLine (copy c) != d || s.hbm.poisoned.contains (copy c / 64) != p
    if wrong = [] then s1
    else
      wrong.foldl (fun s c => hbmAccess (s.updHbm fun h => { h with
        mem := h.mem.writeLine (copy c) d,
        poisoned := (h.poisoned.filter (· != copy c / 64)) ++ if p then [copy c / 64] else [] }) (copy c) 0 true)
        (logClass s1 0x06 2 (stackOf (copy 0)) addr)

end Sys2Proof.Machine
end

