-- ==== Sys2Proof/Machine/PoolOps.lean ====
section
/-! DEFINITION. Backing memory: fabric extents, the records of backing extents (R180), free lists, allocation (R175),
LOST extents (R179) and release (R182). -/

namespace Sys2Proof.Machine
open Sys2Proof

/-! ## The page map (R169, R170) -/

/-- The entry of a fabric extent that is not UNALLOCATED. -/
def fxEntry (s : State) (fx : Nat) : Option FxEntry := s.pool.fxs.find? (·.fx == fx)

/-- Table POOL-2: STATE of a fabric extent. -/
def fxState (s : State) (fx : Nat) : ExtState := match fxEntry s fx with | some e => e.state | none => .unallocated

/-- The record of a backing extent that is not free. -/
def recOf (s : State) (bx : Nat) : Option ExtRecord := s.pool.recs.find? (·.bx == bx)

/-- The pool changed. -/
def State.updPool (s : State) (f : Pool → Pool) : State := { s with pool := f s.pool }

/-- One record changed. -/
def updRec (s : State) (bx : Nat) (f : ExtRecord → ExtRecord) : State :=
  s.updPool fun x => { x with recs := updFirst (·.bx == bx) f x.recs }

/-- R165: the port and local extent of a backing extent. -/
def bxPort (s : State) (bx : Nat) : Option (Fin 24 × Nat) :=
  ((List.finRange 24).find? fun p =>
    let m := s.ports[p].mem
    m.taken && decide (m.bxBase ≤ bx ∧ bx < m.bxBase + m.ek)).map fun p => (p, bx - s.ports[p].mem.bxBase)

/-- R172, R188: every copy of an ALLOCATED extent: copy index and BX. -/
def allCopies (s : State) (e : FxEntry) : List (Nat × Nat) :=
  if e.triple then
    match s.pool.triples.find? (·.1 == e.tidx) with
    | some (_, b1, b2) => [(0, e.bx), (1, b1), (2, b2)]
    | none => [(0, e.bx)]
  else [(0, e.bx)]

/-- R238: the copies of an extent that are not lost. -/
def liveCopies (s : State) (e : FxEntry) : List (Nat × Nat) :=
  (allCopies s e).filter fun c => !(s.pool.degraded.contains (e.fx, c.1))

/-- R251: spares that copies of an extent are being copied to. -/
def spareCopies (s : State) (fx : Nat) : List Nat := (s.pool.jobs.filter (·.fx == fx)).map (·.newBx)

/-- R169: the written-bitmap of an extent: that of its first copy that is not lost, else of the first whose bitmap is there. -/
def bitmapOf (s : State) (e : FxEntry) : Nat :=
  match liveCopies s e with
  | (_, bx) :: _ => match recOf s bx with | some r => r.bitmap | none => 0
  | [] => match (allCopies s e).findSome? fun c => recOf s c.2 with | some r => r.bitmap | none => 0

/-- R173, R238: an ALLOCATED extent has a copy whose written-bitmap is there. -/
def hasBitmap (s : State) (fx : Nat) : Bool :=
  match fxEntry s fx with | some e => (allCopies s e).any fun c => (recOf s c.2).isSome | none => false

/-- R173: the page of an ALLOCATED extent has its written bit set. -/
def pageWritten (s : State) (fx page : Nat) : Bool :=
  match fxEntry s fx with
  | some e => e.state == .allocated && bitOf (bitmapOf s e) page
  | none => false

/-! ## Requests to memory ports (R186) -/

/-- A request joins the queue of a memory port's scheduler. -/
def memEnqueue (s : State) (p : Fin 24) (r : MemReq) : State :=
  s.updPort p fun x => { x with mem := { x.mem with queue := x.mem.queue ++ [r] } }

/-- R189: the extents of the port cannot be reached. -/
def portUnreachable (s : State) (p : Fin 24) : Bool := (s.port p).mem.unreachable

/-- R180: bytes 0-119 of an extent record. -/
def recBody (s : State) (fx state : Nat) (triple : Bool) (copy part tidx bitmap : Nat) : List Byte :=
  leBytes 8 (fx % 2 ^ 25 + state * 2 ^ 25 + (b2n triple) * 2 ^ 27 + copy * 2 ^ 28 + part * 2 ^ 30 + tidx * 2 ^ 38) ++
  leBytes 8 s.led.poolGen ++ leBytes 64 bitmap ++ List.replicate 40 0

/-- Table POOL-3: the 128 bytes of an extent record. -/
def recBytes (s : State) (fx state : Nat) (triple : Bool) (copy part tidx bitmap : Nat) : List Byte :=
  let b := recBody s fx state triple copy part tidx bitmap
  b ++ leBytes 8 (crc64 b)

/-- R180: the record of a backing extent written to its port's metadata area, as two MEM_WR of partition 0. Nothing is
sent to a port whose extents are unreachable (R189). -/
def writeRecord (s : State) (bx : Nat) : State :=
  match bxPort s bx with
  | none => s
  | some (p, e) =>
    if portUnreachable s p then s else
      let bs := match recOf s bx with
        | some r => recBytes s r.fx (if r.retired then 3 else 1) r.triple r.copy r.part r.tidx r.bitmap
        | none => recBytes s 0 0 false 0 0 0 0
      let m := (s.port p).mem
      let base := (m.ek - m.metaExt) * 32768 + 2 * e
      let req := fun h : Nat => ({ kind := 3, maddr := base + h, part := 0, why := .record bx h, data := Line.ofBytes (bs.drop (64 * h)) } : MemReq)
      memEnqueue (memEnqueue s p (req 0)) p (req 1)

/-- R180: every record write of a backing extent has been acknowledged. -/
def recordAcked (s : State) (bx : Nat) : Bool :=
  match bxPort s bx with
  | none => true
  | some (p, _) =>
    let m := (s.port p).mem
    let is := fun (r : MemReq) => match r.why with | .record b _ => b == bx | _ => false
    !(m.queue.any is) && !(m.outstanding.any fun o => is o.req)

/-- R171, R176, R182: the written bit of a page set or cleared in the bitmap of every copy, each by one bit-masked access, with the
records (R180). -/
def setWritten (s : State) (fx page : Nat) (v : Bool) : State :=
  match fxEntry s fx with
  | none => s
  | some e =>
    (liveCopies s e).foldl (fun s c =>
      let bit := fun (r : ExtRecord) => if v then r.bitmap ||| 2 ^ page else if bitOf r.bitmap page then r.bitmap - 2 ^ page else r.bitmap
      writeRecord (updRec (hbmAccess s (0x250000000 + c.2 * 64) 0 true) c.2 fun r => { r with bitmap := bit r }) c.2) s

/-! ## Free lists and counts (R175) -/

/-- R175: the state of a partition at the allocator. -/
def partState (s : State) (p : Nat) : PartState :=
  match s.pool.parts.find? (·.part == p) with | some x => x | none => { part := p }

/-- The state of a partition changed. -/
def updPart (s : State) (p : Nat) (f : PartState → PartState) : State :=
  let x := f (partState s p)
  s.updPool fun q => { q with parts := upsert (·.part == p) x q.parts }

/-- R175: the next extent of a port's free list and the port without it. -/
def popFree (m : PortMem) : Option (Nat × PortMem) :=
  match m.pushed with
  | e :: rest => some (e, { m with pushed := rest })
  | [] =>
    match m.fresh with
    | (lo, hi) :: rest =>
      if lo < hi then some (lo, { m with fresh := if lo + 1 < hi then (lo + 1, hi) :: rest else rest }) else none
    | [] => none

/-- R175: ELIGIBLE: the port contributes, its link is ACTIVE, it is not in MAINT, and its module has been taken. -/
def eligible (s : State) (p : Fin 24) : Bool :=
  let x := s.port p
  isMem s p && x.mem.taken && !x.mem.away && !x.mem.unreachable &&
  (if isOlk s p then x.link.state == .active else x.cxl.up)

/-- The ports after port number k, ascending, cyclic. -/
def portsAfter (k : Nat) : List (Fin 24) :=
  (List.range 24).map fun i => ⟨(k + 1 + i) % 24, Nat.mod_lt _ (by decide)⟩

/-- A local extent taken from each port's free list: the state and the BX of each. -/
def takeExtents (s : State) : List (Fin 24) → State × List Nat
  | [] => (s, [])
  | p :: ps =>
    match popFree (s.port p).mem with
    | none => takeExtents s ps
    | some (e, m) =>
      let (s1, bs) := takeExtents (s.updPort p fun x => { x with mem := m }) ps
      (s1, (m.bxBase + e) :: bs)

/-- R175: a freed extent is pushed on its port's stack. -/
def pushFree (s : State) (bx : Nat) : State :=
  match bxPort s bx with
  | none => s
  | some (p, e) => s.updPort p fun x => { x with mem := { x.mem with pushed := e :: x.mem.pushed } }

/-- R172: the lowest index of the triple table that no extent uses. -/
def freeTidx (s : State) : Nat :=
  ((List.range 256).find? fun i => !(s.pool.triples.any (·.1 == i))).getD 0

/-! ## The page map in HBM (Table POOL-1) -/

/-- Little-endian words of a width in bytes as a line. -/
def lineOf (w : Nat) (xs : List Nat) : Line := Line.ofBytes (xs.flatMap (leBytes w))

/-- Table POOL-2: the 64 bits of a fabric extent table entry. -/
def fxWord (s : State) (fx : Nat) : Nat :=
  match fxEntry s fx with
  | some e => e.bx + (match e.state with | .unallocated => 0 | .allocated => 1 | .lost => 2) * 2 ^ 23 + b2n e.triple * 2 ^ 25 +
              e.tidx * 2 ^ 26 + e.part * 2 ^ 34
  | none => 0

/-- R169: the backing-extent-table entry of a BX: bytes 0-7 of its record (Table POOL-3). -/
def bxWord (s : State) (bx : Nat) : Nat :=
  match recOf s bx with
  | some r => r.fx % 2 ^ 25 + (if r.retired then 3 else 1) * 2 ^ 25 + b2n r.triple * 2 ^ 27 + r.copy * 2 ^ 28 + r.part * 2 ^ 30 + r.tidx * 2 ^ 38
  | none => 0

/-- R169: the distance between the free-list stacks of two ports (DESIGN CHOICE, assumption 79). -/
abbrev freeListStride : Nat := 0x155540

/-- R175: entry i of the ascending runs of a free list. -/
def freshAt : List (Nat × Nat) → Nat → Nat
  | [], _ => 0
  | (lo, hi) :: rs, i => if i < hi - lo then lo + i else freshAt rs (i - (hi - lo))

/-- R169: word i, from the bottom, of a port's free-list stack. -/
def freeWord (m : PortMem) (i : Nat) : Nat :=
  let n := freeOf m
  if n ≤ i then 0
  else if n - 1 - i < m.pushed.length then m.pushed.getD (n - 1 - i) 0 else freshAt m.fresh (n - 1 - i - m.pushed.length)

/-- R169: one line of the free lists. -/
def freeLine (s : State) (off : Nat) : Line :=
  if h : off / freeListStride < 24 then
    lineOf 4 ((List.range 16).map fun i => freeWord s.ports[off / freeListStride].mem (off % freeListStride / 4 + i))
  else 0

/-- R172: the 64 bits of one word of the page-map root: the pool generation, the descriptors of the ports, and the triple table, in
that order (DESIGN CHOICE, assumption 79: the spec gives the contents, not their places). -/
def rootWord (s : State) (i : Nat) : Nat :=
  if i = 0 then s.led.poolGen
  else if i < 128 then
    (if h : (i - 1) / 5 < 24 then
      let m := s.ports[(i - 1) / 5].mem
      match (i - 1) % 5 with
      | 0 => m.bxBase | 1 => m.ek | 2 => m.metaExt | 3 => freeOf m
      | _ => if freeOf m = 0 then 0 else freeWord m (freeOf m - 1)
     else 0)
  else if i < 384 then (match s.pool.triples.find? (·.1 == i - 128) with | some (_, b1, b2) => b1 + b2 * 2 ^ 32 | none => 0)
  else 0

/-- R172: one line of the page-map root: line n of the root lies in every copy. -/
def rootLine (s : State) (n : Nat) : Line := lineOf 8 ((List.range 8).map fun i => rootWord s (8 * n + i))

/-- R172: the places of line n of the page-map root: block k of copy c lies at 0x2_7600_0000 + (4k + c) blocks. -/
def rootCopy (n c : Nat) : Nat := 0x276000000 + (4 * (n / 64) + c) * 4096 + n % 64 * 64

/-- R172: the line of the page-map root that holds a word is written in all three copies. -/
def rootPut (s : State) (word : Nat) : State := tripleWrite s (rootCopy (word / 8)) (rootLine s (word / 8))

/-- R172: the lines of the root that hold the descriptors of ports are written. -/
def rootPorts (s : State) (ps : List (Fin 24)) : State :=
  ((ps.flatMap fun p => [(1 + 5 * p.val) / 8, (5 + 5 * p.val) / 8]).eraseDups).foldl (fun s n => rootPut s (8 * n)) s

/-- R172: every line of the page-map root written, in its three copies. -/
def rootAll (s : State) : State := (List.range 48).foldl (fun s l => rootPut s (8 * l)) s

/-- R172: the line of the root that holds an entry of the triple table is read and voted. -/
def rootTriple (s : State) (tidx : Nat) : State := tripleRead s (rootCopy ((128 + tidx) / 8)) []

/-- R171: the parity bit of a page-map-cache way: even parity over the entry. -/
def mapParity (entry : Nat) : Bool := (List.range 64).countP (bitOf entry) % 2 == 1

/-- R171: the fabric extent entry of an extent is written through to the table, and every slice's cached copy of it is updated in the
same cycle. -/
def fxWrite (s : State) (fx : Nat) : State :=
  let e := fxWord s fx
  let s1 := hbmAccess s (0x240000000 + fx * 8 / 64 * 64) 0 true
  (List.finRange 16).foldl (fun s k => s.updSlc k fun sl => { sl with
    pmCache := sl.pmCache.map fun w => if w.fx == fx then { w with entry := e, parity := mapParity e } else w }) s1

/-- R169, R180: the record of a backing extent is written to its port, and its bytes 0-7 to the backing extent table. -/
def recWrite (s : State) (bx : Nat) : State := writeRecord (hbmAccess s (0x270000000 + bx * 8 / 64 * 64) 0 true) bx

/-- R238, R251: a port that can give a spare for a copy of an extent: eligible, with a free extent, and holding no other copy. -/
def sparePort (s : State) (e : FxEntry) (copy : Nat) : Option (Fin 24) :=
  let others := ((liveCopies s e).filter fun c => c.1 != copy).filterMap fun c => (bxPort s c.2).map (·.1)
  (portsAfter (partState s e.part).ptr).find? fun p =>
    eligible s p && decide (0 < freeOf (s.port p).mem) && !(e.triple && others.contains p)

/-- R188: the protection class of a partition is TRIPLE. -/
def partTriple (s : State) (p : Nat) : Bool := bitOf (cfgGet s keyFlags p) 2

/-- Shadow counts of the allocator moved by n extents from free to allocated (R257). -/
def shadowAlloc (s : State) (p : Nat) (n : Int) : State :=
  let s1 := s.updPool fun q => { q with shAllocated := (q.shAllocated + n).toNat, shFree := (q.shFree - n).toNat }
  updPart s1 p fun x => { x with shAlloc := (x.shAlloc + n).toNat }

/-- R175: an extent written ALLOCATED for a partition on the backing extents given. -/
def bindExtent (s : State) (fx p : Nat) (triple : Bool) (bxs : List Nat) : State :=
  let tidx := if triple then freeTidx s else 0
  let e : FxEntry := { fx := fx, bx := bxs.headD 0, state := .allocated, triple := triple, tidx := tidx, part := p }
  let recs := bxs.zipIdx.map fun (b, i) =>
    ({ bx := b, fx := fx, triple := triple, copy := i, part := p, tidx := tidx } : ExtRecord)
  let s1 := s.updPool fun q => { q with
    fxs := upsert (·.fx == fx) e q.fxs,
    recs := q.recs.filter (fun r => !(bxs.contains r.bx)) ++ recs,
    triples := if triple then q.triples ++ [(tidx, bxs.getD 1 0, bxs.getD 2 0)] else q.triples }
  let s2 := bxs.foldl recWrite (fxWrite s1 fx)
  let s3 := if triple then rootPut s2 (128 + tidx) else s2
  updPart (shadowAlloc s3 p bxs.length) p fun x => { x with alloc := x.alloc + bxs.length }

/-- R175: allocate(fx, p, cls, kind). -/
def allocate (s : State) (fx p : Nat) (collect : Bool) : State × AllocCode :=
  if fxState s fx != .unallocated then (s, .ok)
  else
    let triple := partTriple s p
    let need : Nat := if triple then 3 else 1
    let headroom := if collect then 0 else cfgGet s keyHeadroom p
    let st := partState s p
    if (st.alloc + need : Int) > (cfgGet s keyQuota p : Int) - headroom then (s, .quota)
    else
      let reserve := if collect then 0 else cfgGet s keyWbReserve 0
      if (freeExtents s : Int) - need < reserve then (s, .poolEmpty)
      else
        let ports := ((portsAfter st.ptr).filter fun k => decide (0 < freeOf (s.port k).mem) && eligible s k).take need
        if ports.length < need then (s, .poolEmpty)
        else
          let (s1, bxs) := takeExtents s ports
          let s2 := rootPorts (bindExtent s1 fx p triple bxs) ports
          let last := (ports.getLast?.map (·.val)).getD st.ptr
          (countEv (updPart s2 p fun x => { x with ptr := last }) 0x0401 0 { part := some p } need, .ok)

/-- R177: the effects of a refused REQ allocation request. -/
def refuseAlloc (s : State) (p : Nat) (c : AllocCode) : State :=
  let s1 := countEv s (if c == .quota then 0x0402 else 0x0403) 0 { part := some p }
  let x := partState s1 p
  let code := if c == .quota then 5 else 6
  let s2 := updPart s1 p fun x => { x with refused := true, firstCode := if x.refused then x.firstCode else code }
  if x.refused then s2 else notify s2 { ntype := 4, arg := p + code * 2 ^ 8 }

/-- The write-buffer entry serves a line of the extent. -/
def wbOfExtent (s : State) (fx : Nat) (e : WbEntry) : Bool := fxOf s e.line == fx

/-- Requests of a write-buffer entry of a slice leave the port queues. -/
def unqueueWb (s : State) (k : Fin 16) (id : Nat) : State :=
  let mine := fun (r : MemReq) => match r.why with | .wbuf k' e _ => k' == k && e == id | _ => false
  (List.finRange 24).foldl (fun s p =>
    if s.ports[p].mem.queue.any mine then
      s.updPort p fun x => { x with mem := { x.mem with queue := x.mem.queue.filter fun r => !(mine r) } }
    else s) s

/-- A write-buffer entry is freed. -/
def dropWb (s : State) (k : Fin 16) (id : Nat) : State :=
  unqueueWb (s.updSlc k fun sl => { sl with wbuf := sl.wbuf.filter (·.id != id) }) k id

/-- R179, R189: entries freed without a write, each counted in WB_DISCARDED. -/
def discardWb (s : State) (which : WbEntry → Bool) : State :=
  (List.finRange 16).foldl (fun s k =>
    ((s.slc k).wbuf.filter which).foldl (fun s e => countEv (dropWb s k e.id) 0x040F 0 { part := some e.part }) s) s

/-- R160: a PERSIST_FLUSH that runs counts an extent of its range made LOST. -/
def countLost (s : State) (fx : Nat) : State :=
  { s with mgmt := { s.mgmt with works := s.mgmt.works.map fun w =>
    if w.op == 0x0503 && extentMeets s fx w.arg0 w.arg1 then { w with count := w.count + 1 } else w } }

/-- R179: the extent becomes LOST: recorded, counted and notified once, and its write-buffer entries are freed. -/
def makeLost (s : State) (fx p : Nat) : State :=
  let s1 := s.updPool fun q => { q with fxs := upsert (·.fx == fx) { fx := fx, state := .lost, part := p } q.fxs }
  let s2 := countEv (fxWrite s1 fx) 0x0404 0 { part := some p }
  let s3 := logClass s2 0x31 6 0 (some (1, fabricOf s (fx * 2 ^ 21))) (some p)
  discardWb (countLost s3 fx) (wbOfExtent s3 fx)

/-- R182: a backing extent that was allocated to a partition returns to its port's free list. -/
def freeBx (s : State) (bx p : Nat) : State :=
  let s1 := s.updPool fun q => { q with recs := q.recs.filter (·.bx != bx) }
  let s2 := rootPorts (recWrite (pushFree s1 bx) bx) (((bxPort s1 bx).map (·.1)).toList)
  updPart (shadowAlloc s2 p (-1)) p fun x => { x with alloc := x.alloc - 1 }

/-- R182: an ALLOCATED extent returns to the free lists of its ports; a copy of it in progress ends, its spare freed
(R251). -/
def freeExtent (s : State) (fx : Nat) : State :=
  match fxEntry s fx with
  | none => s
  | some e =>
    let s1 := if e.state == .allocated then (liveCopies s e).foldl (fun s c => freeBx s c.2 e.part) s else s
    let lostCopies := if e.state == .allocated then (allCopies s e).length - (liveCopies s e).length else 0
    let s2 := updPart s1 e.part fun x => { x with alloc := x.alloc - lostCopies, shAlloc := x.shAlloc - lostCopies }
    let s3 := fxWrite (s2.updPool fun q => { q with
      fxs := q.fxs.filter (·.fx != fx),
      triples := if e.triple then q.triples.filter (·.1 != e.tidx) else q.triples,
      degraded := q.degraded.filter (·.1 != fx) }) fx
    if e.triple && e.state == .allocated then rootPut s3 (128 + e.tidx) else s3

/-- R175: the allocation request the allocator serves next: COLLECT before REQ, slices in rotating order. -/
def nextAlloc (s : State) : Option AllocReq :=
  let order := (List.range 16).map fun i => (s.pool.rr + i) % 16
  let pick := fun c => order.findSome? fun k => s.pool.queue.find? fun r => r.collect == c && r.slice.val == k
  (pick true).or (pick false)

/-- R175, R174, R179: the allocator serves one request; its answer goes to the slice. -/
def serveAlloc (s : State) : State :=
  match nextAlloc s with
  | none => s
  | some r =>
    let s0 := s.updPool fun q => { q with queue := removeFirst r q.queue, rr := (r.slice.val + 1) % 16 }
    if s.cons.contained && !r.collect then s0 else
    let fx := fxOf s0 r.laddr
    let (s1, c) := allocate s0 fx r.part r.collect
    let s2 := match c with
      | .ok => s1
      | _ => if r.collect then makeLost s1 fx r.part else refuseAlloc s1 r.part c
    s2.updSlc r.slice fun sl => { sl with
      answers := sl.answers ++ [{ txn := r.txn, laddr := r.laddr, code := c }] }

end Sys2Proof.Machine
end

