-- ==== Sys2Proof/Machine/Msc.lean ====
section
/-! DEFINITION. The memory-side cache: hank frames (R136 to R147), HBM accesses, fills (R148, R149), the placing of dirty
data (R150), the backing write buffer (R151, R152) and eviction slots (R153, R154). -/

namespace Sys2Proof.Machine
open Sys2Proof

/-! ## Frames -/

/-- A hank frame; free when none is listed. -/
def frameGet (s : State) (f : Nat) : Frame :=
  match s.hbm.frames.find? (·.num == f) with | some x => x | none => { num := f, state := .free }

/-- R140: 1 when the state counts as valid. -/
def fsValid (x : FrameState) : Nat := if x == .present || x == .evicting then 1 else 0

/-- R140: 1 when the state is retired. -/
def fsRetired (x : FrameState) : Nat := if x == .retired then 1 else 0

/-- An entry with the MIRROR fields of another. -/
def keepMirror (old x : Frame) : Frame := { x with mirState := old.mirState, mirAnyO := old.mirAnyO }

/-- R139: the table with an entry; one that is free and whose MIRROR fields are zero is not listed. -/
def putFrame (fs : List Frame) (x : Frame) : List Frame :=
  if x.state == .free && x.mirState == .free && !x.mirAnyO then fs.filter (·.num != x.num) else upsert (·.num == x.num) x fs

/-- R139: the HBM line of the hank-tag table that holds a frame's entry. -/
def tagLine (f : Nat) : Nat := 0x200000000 + f * 32 / 64 * 64

/-- Table MSC-3: the encoding of FSTATE. -/
def frameNumber : FrameState → Nat | .free => 0 | .present => 1 | .evicting => 2 | .retired => 3

/-- Table MSC-3: the 256 bits of a hank-tag entry. -/
def tagWord (x : Frame) : Nat :=
  x.valid.toNat + x.owned.toNat * 2 ^ 64 + x.poison.toNat * 2 ^ 128 + x.hank * 2 ^ 192 + x.part * 2 ^ 232 + x.rrpv * 2 ^ 240 +
  frameNumber x.state * 2 ^ 242 + frameNumber x.mirState * 2 ^ 244 + b2n x.mirAnyO * 2 ^ 246

/-- R141: one parity bit over a way: its entry, its way number and its recently-used bit. -/
def tagParity (w : TagWay) : Bool :=
  let x := tagWord w.entry
  let word := x ^^^ (x >>> 64) ^^^ (x >>> 128) ^^^ (x >>> 192) ^^^ (w.tway + b2n w.used * 16)
  popcount (BitVec.ofNat 64 word) % 2 == 1

/-- R141: a way written: its parity bit goes with it. -/
def sealWay (w : TagWay) : TagWay := { w with parity := tagParity w }

/-- R141, R142: an entry is written to the table as a 32 B masked write, and to the copies of it in the hank-tag cache and in
the tag-set table, where the write is outstanding until the controller completes it. -/
def writeTag (s : State) (x : Frame) : State :=
  let s1 := hbmAccess (s.updHbm fun h => { h with frames := putFrame h.frames x }) (tagLine x.num) 0 true
  let k := sliceOfFrame s.fuses.is144 x.num
  let ls := setOfFrame s.fuses.is144 x.num
  if h : k < 16 then
    s1.updSlc ⟨k, h⟩ fun sl => { sl with
      tagc := sl.tagc.map fun w => if w.ls == ls && w.tway == x.num % 16 then sealWay { w with entry := x } else w,
      tst := updFirst (fun (e : TagSet) => e.ls == ls) (fun e => { e with writes := e.writes + 1 }) sl.tst }
  else s1

/-- R143: a change of FSTATE, or of OWNED between zero and nonzero, is written to the frame's mirror in the same pass. -/
def mirrorWrite (s : State) (old x : Frame) : State :=
  if old.state == x.state && (old.owned == 0) == (x.owned == 0) then s
  else writeTag s { frameGet s (x.num ^^^ 2) with mirState := x.state, mirAnyO := x.owned != 0 }

/-- A frame written, with its mirror, and its slice's shadow counts moved (R257). -/
def frameSet (s : State) (x0 : Frame) : State :=
  let old := frameGet s x0.num
  let x := keepMirror old x0
  if x = old then s
  else
    let s1 := mirrorWrite (writeTag s x) old x
    let k := sliceOfFrame s.fuses.is144 x.num
    if h : k < 16 then
      let sl := s1.slices[k]
      { s1 with slices := s1.slices.set k { sl with shadow := { sl.shadow with
          frValid := sl.shadow.frValid + fsValid x.state - fsValid old.state,
          frRetired := sl.shadow.frRetired + fsRetired x.state - fsRetired old.state } } }
    else s1

/-- R137: the 16 frame numbers of the set of a hank. -/
def setFrames (s : State) (k : Fin 16) (hank : Nat) : List Nat :=
  (List.range 16).map fun w => frameOf s.fuses.is144 k (localSet s.fuses.is144 hank) w

/-- The frame in which a hank is present and not being evicted. -/
def hankFrame (s : State) (k : Fin 16) (hank : Nat) : Option Frame :=
  (setFrames s k hank).findSome? fun f =>
    let x := frameGet s f
    if x.state == .present && x.hank == hank then some x else none

/-- R154: the active eviction slot a hank meets, and whether it is the slot's OUT_HANK. -/
def slotFor (s : State) (k : Fin 16) (hank : Nat) : Option (EvSlot × Bool) :=
  match (s.slc k).slots.find? (·.outHank == hank) with
  | some x => some (x, true)
  | none => ((s.slc k).slots.find? (·.inHank == some hank)).map fun x => (x, false)

/-- R155: O_LINES: lines in state O in frames, and walker copies still on their way (R156); a copy whose entry a write has replaced
is done (R151). -/
def oLines (s : State) : Nat :=
  (s.hbm.frames.map fun x => popcount x.owned).sum +
  ((List.finRange 16).map fun k => (s.slc k).reads.countP fun r => !r.done && (match r.why with | .walk _ _ _ => true | _ => false)).sum

/-! ## Lines of frames -/

/-- A line of a frame written in HBM; a poisoned line is written as zero bytes (Table PROT-3). -/
def hbmWriteLine (s : State) (f j : Nat) (d : Line) (poison : Bool) (part : Nat) : State :=
  let ha := frameLineAddr f j
  let s1 := s.updHbm fun h => { h with mem := h.mem.writeLine ha (if poison then 0 else d),
                                       poisoned := h.poisoned.filter (· != ha / 64) ++ (if poison then [ha / 64] else []) }
  hbmAccess s1 ha part true

/-- R16: a line of a frame read; the data is what the controller serves in order (R123). -/
def hbmReadLine (s : State) (k : Fin 16) (f j part : Nat) (why : HbmWhy) : State × Nat :=
  let ha := frameLineAddr f j
  let id := (s.slc k).nextRead
  let r : HbmRead := { id := id, why := why, ha := ha, data := s.hbm.mem.readLine ha,
                       poison := s.hbm.poisoned.contains (ha / 64), mark := (frameGet s f).poison.getLsbD j }
  (hbmAccess (s.updSlc k fun sl => { sl with reads := sl.reads ++ [r], nextRead := id + 1 }) ha part false, id)

/-- A metadata line read (R123, R142, R171): no data is carried, since the structures are held once. -/
def hbmReadMeta (s : State) (k : Fin 16) (ha : Nat) (why : HbmWhy) : State × Nat :=
  let id := (s.slc k).nextRead
  (hbmAccess (s.updSlc k fun sl => { sl with reads := sl.reads ++ [{ id := id, why := why, ha := ha }], nextRead := id + 1 }) ha 0 false, id)

/-! ## Hank-tag cache (R141) -/

/-- R142: nothing is outstanding in the set of a tag-set table entry. -/
def tagIdle (e : TagSet) : Bool := e.waiting == [] && !e.reading && e.writes == 0 && !e.walk

/-- R142: the copy of a table set is asked for through the tag-set table, as one access of its eight lines; a pass that needs a new
entry while all 32 are in use is replayed. -/
def tagRead (s : State) (k : Fin 16) (ls : Nat) : PassM :=
  if (s.slc k).tst.any (·.ls == ls) then .ok s
  else if 32 ≤ (s.slc k).tst.length then .error .conflictReplay
  else
    let s1 := s.updSlc k fun sl => { sl with tst := sl.tst ++ [{ ls := ls, reading := true }] }
    .ok ((List.range 8).foldl (fun s i => hbmAccess s (tagAddr s.fuses.is144 k ls + 64 * i) 0 false) s1)

/-- One entry of the tag-set table changed; it is freed once nothing in its set is outstanding. -/
def updTst (s : State) (k : Fin 16) (ls : Nat) (f : TagSet → TagSet) : State :=
  s.updSlc k fun sl => { sl with tst := (updFirst (fun (x : TagSet) => x.ls == ls) f sl.tst).filter fun x => !(tagIdle x) }

/-- The hank-tag-cache way that holds a hank: it holds present hanks only. -/
def tagcFind (s : State) (k : Fin 16) (hank : Nat) : Option TagWay :=
  let ls := localSet s.fuses.is144 hank
  (s.slc k).tagc.find? fun w => w.ls == ls && w.entry.state == .present && w.entry.hank == hank

/-- A hit marks the way recently used. -/
def tagcTouch (s : State) (k : Fin 16) (w : TagWay) : State :=
  s.updSlc k fun sl => { sl with tagc := updFirst (fun x => x.set == w.set && x.way == w.way) (fun x => sealWay { x with used := true }) sl.tagc }

/-- R141: a hank found present is inserted: the victim is the lowest way whose recently-used bit is clear, that of a way that
holds nothing among them; when every way is recently used, the bits of the set are cleared first. The new way is recently used
(DESIGN CHOICE, assumption 78). -/
def tagcInsert (s : State) (k : Fin 16) (ls tway : Nat) : State :=
  let sl := s.slc k
  let idx := ls % 2048
  let inSet := sl.tagc.filter fun (x : TagWay) => x.set == idx
  if s.hbm.cache == .disabled || inSet.any fun w => w.ls == ls && w.tway == tway then s
  else
    let cold := (List.range 8).find? fun w => !(inSet.any fun x => x.way == w && x.used)
    let clear := sl.tagc.map fun (x : TagWay) => if x.set == idx then sealWay { x with used := false } else x
    let ways := if cold.isNone then clear else sl.tagc
    let w := cold.getD 0
    let new : TagWay := { set := idx, way := w, ls := ls, tway := tway, used := true, entry := frameGet s (frameOf s.fuses.is144 k ls tway) }
    s.updSlc k fun sl => { sl with tagc := ways.filter (fun (x : TagWay) => !(x.set == idx && x.way == w)) ++ [sealWay new] }

/-- The hank-tag cache no longer holds a frame's entry. -/
def tagcForget (s : State) (k : Fin 16) (f : Nat) : State :=
  let ls := setOfFrame s.fuses.is144 f
  s.updSlc k fun sl => { sl with tagc := sl.tagc.filter fun w => !(w.ls == ls && w.tway == f % 16) }

/-! ## Backing reads (R148, R149, R173) -/

/-- The page of a line in its fabric extent. -/
def linePage (s : State) (line : Nat) : Nat := pageOf s line

/-- R182: the line has been discarded, its page is still being discarded, and nothing has been written to it since. -/
def lineDiscarded (s : State) (line : Nat) : Bool := s.pool.discards.any fun x => x.1 == hankOf line && x.2.getLsbD (lineIn line)

/-- R182: the line's discard is done, or a write follows it. -/
def noteDiscard (s : State) (line : Nat) (done : Bool) : State :=
  let m := oneHot (lineIn line)
  let mark := fun (x : Nat × Mask) => if x.1 == hankOf line then (x.1, if done then x.2 ||| m else x.2 &&& ~~~ m) else x
  s.updPool fun q => { q with discards := q.discards.map mark }

/-- R173: where a read that misses gets its value from, once the page map is known. -/
inductive HomeSource where
  | zero | poison | back
  deriving DecidableEq, Repr

/-- R151, R251: the backing lines a DATA or ZERO entry is written to; unreachable ports are left out (R189). -/
def targetsOf (s : State) (line : Nat) : List WbTarget :=
  match fxEntry s (fxOf s line) with
  | some e =>
    if e.state == .allocated then
      ((liveCopies s e).map (·.2) ++ spareCopies s e.fx).filterMap fun bx =>
        (bxPort s bx).bind fun (p, loc) =>
          if portUnreachable s p then none
          else some ({ port := p, maddr := maddrOf loc (linePage s line) (lineIn line) } : WbTarget)
    else []
  | none => []

/-- R251: the targets of a line on the spares its extent is being copied to. -/
def spareTargets (s : State) (line : Nat) : List WbTarget :=
  (spareCopies s (fxOf s line)).filterMap fun bx =>
    (bxPort s bx).bind fun (p, loc) =>
      if portUnreachable s p then none
      else some ({ port := p, maddr := maddrOf loc (linePage s line) (lineIn line) } : WbTarget)

/-- The copies of a line that a read goes to: copy index, port, MADDR; none where the port is unreachable. -/
def readCopies (s : State) (line : Nat) : List (Nat × Option (Fin 24 × Nat)) :=
  match fxEntry s (fxOf s line) with
  | some e => (liveCopies s e).map fun (c, bx) =>
      (c, (bxPort s bx).bind fun (p, loc) =>
        if portUnreachable s p then none else some (p, maddrOf loc (linePage s line) (lineIn line)))
  | none => []

/-- R173: the source of a read miss without a write-buffer entry. -/
def homeSource (s : State) (line : Nat) : HomeSource :=
  match fxState s (fxOf s line) with
  | .unallocated => .zero
  | .lost => .poison
  | .allocated =>
    if !(hasBitmap s (fxOf s line)) then .poison
    else if !(pageWritten s (fxOf s line) (linePage s line)) || lineDiscarded s line then .zero
    else if (readCopies s line).all (·.2.isNone) then .poison else .back

/-- R148, R173, R236: a backing read sent to every copy of the line's extent. -/
def issueBack (s : State) (k : Fin 16) (line part : Nat) (frame txn entry : Option Nat) : State × Nat :=
  let id := (s.slc k).nextB
  let cs := readCopies s line
  let gone := cs.filterMap fun (c, t) => if t.isNone then some ({ copy := c, good := false, maddr := 2 ^ 46 } : CopyGot) else none
  let b : BackRead := { id := id, line := line, part := part, frame := frame, txn := txn, entry := entry, total := cs.length, got := gone }
  let s1 := s.updSlc k fun sl => { sl with bReads := sl.bReads ++ [b], nextB := id + 1 }
  (cs.foldl (fun s (c, t) =>
    match t with
    | some (p, ma) => memEnqueue s p { kind := 0, maddr := ma, part := part, line := line, why := .read k id c }
    | none => s) s1, id)

/-- R149: every pass that writes a line marks its outstanding fills STALE. -/
def markStale (s : State) (k : Fin 16) (line : Nat) : State :=
  s.updSlc k fun sl => { sl with bReads := sl.bReads.map fun b => if b.line == line then { b with stale := true } else b }

/-- R149: a line installed in a frame as C. -/
def installC (s : State) (f line : Nat) (d : Line) (poison : Bool) : State :=
  let x := frameGet s f
  let m := oneHot (lineIn line)
  let s1 := frameSet s { x with valid := x.valid ||| m, owned := x.owned &&& ~~~ m,
                                poison := if poison then x.poison ||| m else x.poison &&& ~~~ m }
  hbmWriteLine s1 f (lineIn line) d poison x.part

/-- The write buffer holds an entry of any kind for the line. -/
def wbAny (s : State) (k : Fin 16) (line : Nat) : Bool := (s.slc k).wbuf.any (·.line == line)

/-- R151: the youngest DATA or ZERO entry of the line whose contents are there. -/
def wbLive (s : State) (k : Fin 16) (line : Nat) : Option WbEntry :=
  ((s.slc k).wbuf.filter fun e => e.line == line && (e.kind == .data || e.kind == .zero) && !e.reservedRead).getLast?

/-- R148: the run of n lines after a demand line, read or installed as zero C lines. -/
def fillRun (s : State) (k : Fin 16) (f line part : Nat) : State :=
  let n := cfgGet s keyFillRun 0
  (List.range n).foldl (fun s i =>
    let l := hankOf line * 64 + (lineIn line + i + 1) % 64
    let x := frameGet s f
    if x.state != .present || x.hank != hankOf line || x.valid.getLsbD (lineIn l) || wbAny s k l ||
       (s.slc k).bReads.any (fun b => b.line == l && b.frame.isSome) || l == line then s
    else match homeSource s l with
      | .zero => installC s f l 0 false
      | .poison => s
      | .back => (issueBack s k l part (some f) none none).1) s

/-- One write-buffer entry of a slice changed. -/
def updWb (s : State) (k : Fin 16) (id : Nat) (f : WbEntry → WbEntry) : State :=
  s.updSlc k fun sl => { sl with wbuf := updFirst (·.id == id) f sl.wbuf }

/-- One eviction slot of a slice changed. -/
def updSlot (s : State) (k : Fin 16) (frame : Nat) (f : EvSlot → EvSlot) : State :=
  s.updSlc k fun sl => { sl with slots := updFirst (·.frame == frame) f sl.slots }

/-! ## Eviction slots (R153) -/

/-- R153 step 4: a slot whose lines have all been copied is freed, and its frame retagged for IN_HANK, or retired. The
fill run of the miss that started the eviction is issued in the retag pass (R154), and the hank retagged is put into the hank-tag
cache in it (DESIGN CHOICE, assumption 78). -/
def retagIfDone (s : State) (k : Fin 16) (f : Nat) : State :=
  match (s.slc k).slots.find? (·.frame == f) with
  | none => s
  | some x =>
    if x.omask != 0 || x.copying != 0 then s
    else
      let s1 := s.updSlc k fun sl => { sl with slots := sl.slots.filter (·.frame != f) }
      match x.inHank with
      | none => frameSet s1 { num := f, state := if x.retire then .retired else .free }
      | some h =>
        if s.hbm.cache == .disabled then frameSet s1 { num := f, state := .free }
        else
          let s2 := frameSet s1 { num := f, hank := h, part := x.inPart, rrpv := x.rrpv, state := .present }
          let s3 := tagcInsert s2 k (setOfFrame s.fuses.is144 f) (f % 16)
          match x.fillRun with
          | some line => fillRun s3 k f line x.inPart
          | none => s3

/-- A line of an evicting frame leaves it: the line's newest value is in the write buffer, or its value is destroyed. -/
def slotForget (s : State) (k : Fin 16) (f j : Nat) : State :=
  let x := frameGet s f
  let m := ~~~ (oneHot j)
  let s1 := frameSet s { x with valid := x.valid &&& m, owned := x.owned &&& m, poison := x.poison &&& m }
  let s2 := updSlot s1 k f fun e => { e with omask := e.omask &&& m, copying := e.copying &&& m }
  retagIfDone s2 k f

/-! ## Write buffer (R151) -/

/-- R151: no target of the entry has been sent to. -/
def wbUnsent (e : WbEntry) : Bool := !(e.targets.any (·.sent))

/-- R151, R178, R180: a target of an entry may be given to its port's scheduler. -/
def wbGate (s : State) (sl : Slice) (e : WbEntry) (t : WbTarget) : Bool :=
  !e.reservedRead && !e.holdAlloc && !t.sent && !t.queued &&
  recordAcked s ((s.port t.port).mem.bxBase + t.maddr / 32768) &&
  !(sl.wbuf.any fun o => decide (o.id < e.id) && o.line == e.line && o.targets.any fun t' => t'.port == t.port && !t'.sent && !t'.queued)

/-- Every target of a slice's write buffer that may go is queued at its port's scheduler, in age order. -/
def queueReady (s : State) (k : Fin 16) : State :=
  (s.slc k).wbuf.foldl (fun s e =>
    e.targets.zipIdx.foldl (fun s (t, i) =>
      if wbGate s (s.slc k) e t then
        let s1 := memEnqueue s t.port { kind := if e.kind == .zero then 2 else 1, maddr := t.maddr, part := e.part, line := e.line, why := .wbuf k e.id i }
        updWb s1 k e.id fun e => { e with targets := e.targets.modify i fun t => { t with queued := true } }
      else s) s) s

/-- R153, R156: the write-buffer entry a copy read fills. -/
def copyEntry : HbmWhy → Option Nat | .evict _ _ x => some x | .walk _ _ x => some x | _ => none

/-- R151: the copy read of a reserved entry counts as done, and its data is discarded when it returns. -/
def copyDone (s : State) (k : Fin 16) (id : Nat) : State :=
  s.updSlc k fun sl => { sl with
    reads := sl.reads.map fun r => if copyEntry r.why == some id then { r with done := true } else r,
    bReads := sl.bReads.map fun b => if b.entry == some id then { b with entry := none } else b }

/-- R151: the procedure that reserved an entry counts its copy as done when a write replaces the entry. -/
def replaceReserved (s : State) (k : Fin 16) (e : WbEntry) : State :=
  if !e.reservedRead then s
  else
    let s1 := copyDone s k e.id
    match (s.slc k).reads.find? fun r => !r.done && (match r.why with | .evict _ _ x => x == e.id | _ => false) with
    | some r => match r.why with | .evict f line _ => slotForget s1 k f (lineIn line) | _ => s1
    | none => s1

/-- R151: a DATA or ZERO write for a line enters the write buffer: in place of an unsent entry, else in a new one. In a
LOST or unreachable extent the entry is freed at once (R179, R189). In an UNALLOCATED extent it is held (R178). -/
def putWb (s : State) (k : Fin 16) (line : Nat) (kind : WbKind) (d : Line) (poison : Bool) (part : Nat)
    (walker : Bool := false) (flush : Option Nat := none) : PassM :=
  let st := fxState s (fxOf s line)
  let ts := targetsOf s line
  if st == .lost || (st == .allocated && ts.isEmpty) then .ok (countEv s 0x040F 0 { part := some part })
  else
    match (s.slc k).wbuf.find? fun e => e.line == line && wbUnsent e with
    | some old =>
      let s1 := unqueueWb s k old.id
      let s2 := updWb s1 k old.id fun e => { e with
        kind := kind, data := if poison then 0 else d, poison := poison, targets := ts, reservedRead := false,
        holdAlloc := st == .unallocated, part := part, walker := e.walker || walker,
        flushTxn := flush.or e.flushTxn }
      .ok (queueReady (replaceReserved s2 k old) k)
    | none =>
      if 512 ≤ (s.slc k).wbuf.length then .error .backing
      else
        let e : WbEntry := {
          id := (s.slc k).nextWb, kind := kind, line := line, targets := ts, data := if poison then 0 else d,
          poison := poison, holdAlloc := st == .unallocated, part := part, walker := walker, flushTxn := flush }
        let s1 := s.updSlc k fun sl => { sl with wbuf := sl.wbuf ++ [e], nextWb := e.id + 1 }
        .ok (queueReady (countEv s1 0x010C k { part := some part }) k)

/-- R153, R156, R251: an entry reserved for a line whose copy is being read; an unsent entry of the line is used. -/
def reserveWb (s : State) (k : Fin 16) (line part : Nat) (kind : WbKind) (ts : List WbTarget) (walker : Bool) : Option (State × Nat) :=
  match (s.slc k).wbuf.find? fun e => e.line == line && wbUnsent e with
  | some old =>
    let s1 := copyDone (unqueueWb s k old.id) k old.id
    some (updWb s1 k old.id fun e => { e with
      kind := kind, targets := ts, reservedRead := true, walker := e.walker || walker }, old.id)
  | none =>
    if 512 ≤ (s.slc k).wbuf.length then none
    else
      let e : WbEntry := { id := (s.slc k).nextWb, kind := kind, line := line, targets := ts, reservedRead := true, part := part, walker := walker }
      some (countEv (s.updSlc k fun sl => { sl with wbuf := sl.wbuf ++ [e], nextWb := e.id + 1 }) 0x010C k { part := some part }, e.id)

/-- R153, R156: a reserved entry filled by its read. -/
def fillReserved (s : State) (k : Fin 16) (id line : Nat) (d : Line) (poison : Bool) : State :=
  match (s.slc k).wbuf.find? fun e => e.id == id && e.line == line && e.reservedRead with
  | none => s
  | some e =>
    let st := fxState s (fxOf s line)
    let ts := if e.kind == .copy then e.targets else targetsOf s line
    if st == .lost || (st == .allocated && ts.isEmpty) then countEv (dropWb s k id) 0x040F 0 { part := some e.part }
    else
      let s1 := updWb s k id fun e => { e with
        data := if poison then 0 else d, poison := poison, targets := ts, reservedRead := false,
        holdAlloc := st == .unallocated }
      queueReady s1 k

/-! ## Victim choice (R146, R147) -/

/-- R147: a frame is pinned. -/
def framePinned (s : State) (k : Fin 16) (f : Nat) : Bool :=
  let sl := s.slc k
  sl.txns.any (fun t => t.frame == some f) || sl.bReads.any (fun b => b.frame == some f) || sl.slots.any (·.frame == f)

/-- R159, R160: the works of the flushes that run. -/
def flushWorks (s : State) : List Work := s.mgmt.works.filter fun w => w.op == 0x0502 || w.op == 0x0503

/-- R159, R160: a hank lies in the range of a flush. -/
def flushCovers (w : Work) (hank : Nat) : Bool := w.op == 0x0502 || decide (w.arg0 / 4096 ≤ hank ∧ hank < (w.arg0 + w.arg1) / 4096)

/-- R159, R160: a flush runs whose walker has yet to reach a frame, so that the O lines of its hank are among those it waits for. -/
def flushAhead (s : State) (k : Fin 16) (x : Frame) : Bool :=
  let sl := s.slc k
  (flushWorks s).any (flushCovers · x.hank) &&
  (sl.persistPos.isSome || (sl.flush.active && decide (sl.flush.next ≤ setOfFrame s.fuses.is144 x.num)))

/-- R159, R160: write-buffer entries that a running flush waits for. -/
def noteEntries (s : State) (es : List (Nat × Nat)) : State :=
  { s with mgmt := { s.mgmt with works := s.mgmt.works.map fun w =>
    if w.op == 0x0502 || w.op == 0x0503 then { w with entries := w.entries ++ es } else w } }

/-- R159, R160: the entries of a line of an eviction slot that a flush waits for. -/
def noteSlotLine (s : State) (k : Fin 16) (x : EvSlot) (line : Nat) : State :=
  if x.flushed then noteEntries s (((s.slc k).wbuf.filter fun e => e.line == line && (e.kind == .data || e.kind == .zero)).map fun e => (k.val, e.id)) else s

/-- What R146 and R147 give for a miss. -/
inductive FrameChoice where
  /-- served uncached -/
  | none
  /-- the frame has been rewritten for the incoming hank -/
  | taken (s : State) (f : Nat)
  /-- an eviction slot has been taken (R153 step 2) -/
  | evicting (s : State) (f : Nat)

/-- R146: choose_frame, and R153 steps 1 and 2 for the frame chosen; the hank that it installs is put into the hank-tag cache in the
same pass (DESIGN CHOICE, assumption 78: R144 states the insertion of a hank found present). -/
def chooseFrame (s : State) (k : Fin 16) (hank part rrpv : Nat) (fill : Option Nat) : FrameChoice :=
  let limit := cfgGet s keyWayLimit part
  if s.hbm.cache != .enabled || limit = 0 then .none
  else
    let fs := (setFrames s k hank).map (frameGet s)
    let held := fs.countP fun x => (x.state == .present || x.state == .evicting) && x.part == part
    let cand0 := fs.filter fun x => (x.state == .free || x.state == .present) && !(framePinned s k x.num)
    let cand := if limit ≤ held then cand0.filter fun x => x.state == .present && x.part == part else cand0
    let ls := localSet s.fuses.is144 hank
    let take := fun (s : State) (x : Frame) =>
      let s1 := tagcForget s k x.num
      tagcInsert (frameSet s1 { num := x.num, hank := hank, part := part, rrpv := rrpv, state := .present }) k ls (x.num % 16)
    match cand with
    | [] => .none
    | _ =>
      match cand.find? (·.state == .free) with
      | some x => .taken (take s x) x.num
      | none =>
        let m := (cand.map (·.rrpv)).foldl max 0
        let aged := cand.map fun x => { x with rrpv := x.rrpv + (3 - m) }
        let c := aged.filter (·.rrpv == 3)
        match (c.find? (·.owned == 0)).or c.head? with
        | none => .none
        | some v =>
          if v.owned == 0 then .taken (take (aged.foldl frameSet s) v) v.num
          else if 64 ≤ (s.slc k).slots.length then .none
          else
            let s1 := frameSet (aged.foldl frameSet s) { v with state := .evicting }
            let slot : EvSlot := { outHank := v.hank, inHank := some hank, frame := v.num, omask := v.owned, inPart := part, rrpv := rrpv, fillRun := fill,
                                   flushed := flushAhead s k v }
            let s2 := (tagcForget s1 k v.num).updSlc k fun sl => { sl with slots := sl.slots ++ [slot] }
            .evicting (countEv s2 0x010A k { part := some part }) v.num

/-! ## Placing dirty data (R150, R176, R178) -/

/-- R176: the first write to a page: its written bit, and ZERO entries for the other lines. -/
def firstWrite (s : State) (k : Fin 16) (line part : Nat) : PassM :=
  let fx := fxOf s line
  let h := hankOf line
  let inFrameO := fun (l : Nat) => (s.hbm.frames.any fun x => x.hank == h && (x.state == .present || x.state == .evicting) &&
    x.owned.getLsbD (lineIn l))
  let ls := ((List.range 64).map fun j => h * 64 + j).filter fun l => l != line && !(wbAny s k l) && !(inFrameO l)
  if 512 < (s.slc k).wbuf.length + ls.length then .error .backing
  else
    let s1 := setWritten s fx (linePage s line) true
    ls.foldlM (fun s l => putWb s k l .zero 0 false part) s1

/-- A frame line written with O data (R150), or left C while the cache is DRAINING (Table MSC-6). -/
def writeFrame (s : State) (x : Frame) (line : Nat) (d : Line) (poison owned nt : Bool) : State :=
  let m := oneHot (lineIn line)
  let s1 := frameSet s { x with
    valid := x.valid ||| m, owned := if owned then x.owned ||| m else x.owned &&& ~~~ m,
    poison := if poison then x.poison ||| m else x.poison &&& ~~~ m, rrpv := if nt then x.rrpv else 0 }
  hbmWriteLine s1 x.num (lineIn line) d poison x.part

/-- R150, Table MSC-4, Table MSC-6: where the data goes. -/
def placeWhere (s : State) (k : Fin 16) (line : Nat) (d : Line) (poison : Bool) (part : Nat) (nt : Bool) : PassM :=
  let h := hankOf line
  match slotFor s k h with
  | some (x, true) => (putWb s k line .data d poison part).map fun s0 =>
      let s := if x.omask.getLsbD (lineIn line) || x.copying.getLsbD (lineIn line) then noteSlotLine s0 k x line else s0
      if (s.slc k).slots.any fun e => e.frame == x.frame && e.outHank == h then slotForget s k x.frame (lineIn line) else s
  | some (_, false) => putWb s k line .data d poison part
  | none =>
    match s.hbm.cache with
    | .disabled => putWb s k line .data d poison part
    | .draining =>
      match hankFrame s k h with
      | some x => putWb (writeFrame s x line d poison false nt) k line .data d poison part
      | none => putWb s k line .data d poison part
    | .enabled =>
      match hankFrame s k h with
      | some x => .ok (writeFrame s x line d poison true nt)
      | none =>
        if nt || fxState s (fxOf s line) == .lost then putWb s k line .data d poison part
        else match chooseFrame s k h part 1 none with
          | .none => putWb s k line .data d poison part
          | .taken s1 f => .ok (writeFrame s1 (frameGet s1 f) line d poison true true)
          | .evicting s1 _ => putWb s1 k line .data d poison part

/-- R150, R176, R178: data that the home must hold as O is placed; collected data of an UNALLOCATED extent asks the
allocator with a COLLECT request. -/
def placeData (s : State) (k : Fin 16) (line : Nat) (d : Line) (poison : Bool) (part : Nat) (nt collected : Bool) : PassM := do
  let s0 := noteDiscard (markStale s k line) line false
  let first := fxState s0 (fxOf s0 line) == .allocated && !(pageWritten s0 (fxOf s0 line) (linePage s0 line))
  let s1 ← if first then do placeWhere (← firstWrite s0 k line part) k line d poison part nt else placeWhere s0 k line d poison part nt
  match fxState s1 (fxOf s1 line) with
  | .allocated => .ok s1
  | .unallocated =>
    if collected then
      .ok (s1.updPool fun q => { q with queue := q.queue ++ [{ slice := k, collect := true, laddr := line, part := part }] })
    else .ok s1
  | .lost => .ok s1

/-- R178, R180: the answer OK of a COLLECT request: the page of the line collected gets its written bit and zero-fill, and its held
entries their targets; they go once the record that carries the bit is acknowledged. -/
def collectOk (s : State) (k : Fin 16) (line part : Nat) : PassM :=
  let fx := fxOf s line
  let give := fun (e : WbEntry) =>
    if e.holdAlloc && hankOf e.line == hankOf line then { e with holdAlloc := false, targets := targetsOf s e.line } else e
  (if fxState s fx == .allocated && !(pageWritten s fx (linePage s line)) then firstWrite s k line part else .ok s).map fun s1 =>
    queueReady (s1.updSlc k fun sl => { sl with wbuf := sl.wbuf.map give }) k

/-- R83: the state of a line in the memory-side cache, the write buffer counting as O (R150). -/
def mscState (s : State) (k : Fin 16) (line : Nat) : MscState :=
  let j := lineIn line
  match s.hbm.frames.find? fun x => x.hank == hankOf line && (x.state == .present || x.state == .evicting) && x.valid.getLsbD j with
  | some x =>
    if x.owned.getLsbD j then .O else match wbLive s k line with | some _ => .O | none => .C
  | none => match wbLive s k line with | some _ => .O | none => .absent

end Sys2Proof.Machine
end

