-- ==== Sys2Proof/Machine/Dir.lean ====
section
/-! DEFINITION. The two-level directory of a slice: lookup (R117, R119), the store access table (R123), victims (R124,
R125), write-back (R121), the disown mask (R134) and recovery candidates (R132). -/

namespace Sys2Proof.Machine
open Sys2Proof

/-! ## Entries -/

/-- The directory entry of a line as a pass takes it. -/
structure DirEntry where
  /-- V (R82) -/
  v : Mask := 0
  /-- I, S or X -/
  state : DirState := .I
  /-- EVICT_GUARD (R105) -/
  guard : Bool := false
  deriving DecidableEq, Repr

/-- R82: the state a vector has when its last holder may hold E or M, or not. -/
def stateOf (v : Mask) (x : Bool) : DirState := if v == 0 then .I else if x then .X else .S

/-- The valid directory-cache way that holds a line. -/
def dcFind (sl : Slice) (line : Nat) : Option CacheWay :=
  sl.dcache.find? fun w => w.set == cidx line && w.tag == dirTag line && w.ssetHi == ssetHi line

/-- The line a directory-cache way holds. -/
def wayLine (w : CacheWay) : Nat := laddrOf w.tag (w.ssetHi * 4096 + w.set)

/-- The store entry of a line. -/
def storeFind (sl : Slice) (line : Nat) : Option StoreEntry :=
  sl.dstore.find? fun e => e.set == sidx line && e.tag == dirTag line

/-- The line a store entry tracks. -/
def entryLine (e : StoreEntry) : Nat := laddrOf e.tag e.set

/-- R117: the directory entry of a line: its cache way, else its store entry, else I. -/
def dirRaw (sl : Slice) (line : Nat) : DirEntry :=
  match dcFind sl line with
  | some w => { v := w.v, state := w.state, guard := w.guard }
  | none =>
    match storeFind sl line with
    | some e => { v := e.v, state := e.state, guard := e.guard }
    | none => {}

/-- R134: the disown mask applied to an entry. -/
def maskEntry (mask : Mask) (d : DirEntry) : DirEntry :=
  let v := d.v &&& ~~~ mask
  { d with v := v, state := stateOf v (d.state == .X) }

/-- R117, R134: the directory entry of a line as every pass takes it. -/
def dirOf (s : State) (k : Fin 16) (line : Nat) : DirEntry := maskEntry s.disown (dirRaw (s.slc k) line)

/-! ## Store access table (R123) -/

/-- The table entry of a store set. -/
def satFind (sl : Slice) (set : Nat) : Option StoreSet := sl.sat.find? (·.set == set)

/-- R123: nothing is outstanding in the set of a table entry. -/
def satIdle (e : StoreSet) : Bool :=
  e.attached == [] && e.waiters == [] && !e.reading && e.writes == 0 && e.reserved == [] && !e.recovering && !e.sweep

/-- One table entry changed. -/
def updSat (s : State) (k : Fin 16) (set : Nat) (f : StoreSet → StoreSet) : State :=
  s.updSlc k fun sl => { sl with sat := updFirst (·.set == set) f sl.sat }

/-- R123: a table entry for the set; a pass that needs a new one while all 64 are in use is replayed. -/
def satEnsure (s : State) (k : Fin 16) (set : Nat) : PassM :=
  if (satFind (s.slc k) set).isSome then .ok s
  else if 64 ≤ (s.slc k).sat.length then .error .conflictReplay
  else .ok (s.updSlc k fun sl => { sl with sat := sl.sat ++ [{ set := set }] })

/-- R123: an entry is freed when its set has no read, write or reservation outstanding. -/
def satFree (s : State) (k : Fin 16) (set : Nat) : State :=
  s.updSlc k fun sl => { sl with sat := sl.sat.filter fun e => !(e.set == set && satIdle e) }

/-- R123: the copy of a store set is asked for: the set is read from HBM unless its copy is there or a read of it is
outstanding. -/
def satRead (s : State) (k : Fin 16) (set : Nat) : PassM := do
  let s1 ← satEnsure s k set
  let e := (satFind (s1.slc k) set).getD {}
  if e.copyValid || e.reading then .ok s1
  else .ok ((List.range 4).foldl (fun s i => hbmAccess s (storeAddr k set (4 * i)) 0 false)
    (updSat s1 k set fun e => { e with reading := true }))

/-- R123: the transaction attaches to the set's table entry, which is read unless its copy is there. -/
def satAttach (s : State) (k : Fin 16) (set id : Nat) : PassM := do
  let s1 ← satRead s k set
  .ok (updSat s1 k set fun e => { e with attached := e.attached ++ [id] })

/-- R123: a store entry written, as a 16 B masked write; none frees the way. -/
def storeWrite (s : State) (k : Fin 16) (set way : Nat) (e : Option StoreEntry) : PassM := do
  let s1 ← satEnsure s k set
  let s2 := updSat s1 k set fun x => { x with writes := x.writes + 1 }
  let rest := (s2.slc k).dstore.filter fun x => !(x.set == set && x.way == way)
  let s3 := s2.updSlc k fun sl => { sl with dstore := match e with | some x => rest ++ [x] | none => rest }
  .ok (hbmAccess s3 (storeAddr k set way) 0 true)

/-! ## Directory cache -/

/-- Table DIR-4: the second identity copy and the flag array of a way, written with its words. -/
def sealDir (w : CacheWay) : CacheWay :=
  { w with ident2 := (w.tag, w.ssetHi, w.sway), validT := 7, dirtyT := if w.dirty then 7 else 0 }

/-- R131: a bit of the flag array: the vote of its three copies. -/
def vote3 (b : BitVec 3) : Bool := b == 3 || b == 5 || b == 6 || b == 7

/-- A cache way written. -/
def dcPut (s : State) (k : Fin 16) (w : CacheWay) : State :=
  s.updSlc k fun sl => { sl with dcache := upsert (fun x => x.set == w.set && x.way == w.way) (sealDir w) sl.dcache }

/-- A cache way made invalid. -/
def dcDrop (s : State) (k : Fin 16) (set way : Nat) : State :=
  s.updSlc k fun sl => { sl with dcache := sl.dcache.filter fun x => !(x.set == set && x.way == way) }

/-- R115: a way is pinned while a transaction entry holds its number. -/
def wayPinned (sl : Slice) (set way : Nat) : Bool := sl.txns.any fun t => t.cway == some (set, way)

/-- R121: the write-back of a valid way that is evicted. -/
def writeBackWay (s : State) (k : Fin 16) (w : CacheWay) : PassM :=
  let s1 := dcDrop s k w.set w.way
  let set := w.ssetHi * 4096 + w.set
  match w.dirty, w.sway with
  | true, some sw =>
    storeWrite s1 k set sw (if w.state == .I then none else
      some { set := set, way := sw, v := w.v, tag := w.tag, state := w.state, guard := w.guard, age := 0 })
  | _, _ => .ok s1

/-- R124: choose_cache_victim: the way chosen, with the ages of the candidates; none when every way is pinned. -/
def chooseCacheVictim (sl : Slice) (set : Nat) : Option (Nat × List CacheWay) :=
  let cand := (List.range 16).filter fun w => !(wayPinned sl set w)
  let ways := sl.dcache.filter fun w => w.set == set && cand.contains w.way
  match cand with
  | [] => none
  | _ =>
    match cand.find? fun w => !(ways.any (·.way == w)) with
    | some w => some (w, [])
    | none =>
      match cand.find? fun w => ways.any fun x => x.way == w && x.state == .I with
      | some w => some (w, [])
      | none =>
        let m := (ways.map (·.age)).foldl max 0
        let aged := ways.map fun x => { x with age := x.age + (3 - m) }
        let c := aged.filter (·.age == 3)
        let lowest := fun (p : CacheWay → Bool) => cand.find? fun w => c.any fun x => x.way == w && p x
        ((lowest fun x => !x.dirty).or (lowest fun _ => true)).map fun w => (w, aged)

/-! ## Store ways (R122, R125) -/

/-- R122: the lowest-numbered free way of a store set that no transaction has reserved. -/
def freeStoreWay (sl : Slice) (set : Nat) : Option Nat :=
  let held : List Nat := match satFind sl set with | some e => e.reserved.map (fun r => r.1) ++ e.lost | none => []
  (List.range 16).find? fun w => !(sl.dstore.any fun e => e.set == set && e.way == w) && !(held.contains w)

/-- Some transaction other than a waiting one holds the line. -/
def lineHeld (sl : Slice) (line : Nat) : Bool := sl.txns.any fun t => t.msg.laddr == line && t.status != .waiting

/-- R125: V of a store entry's line: that of its cache way when it has one. -/
def storeV (sl : Slice) (e : StoreEntry) : Mask := match dcFind sl (entryLine e) with | some w => w.v | none => e.v

/-- R125: choose_store_victim: the entry chosen and the aged entries. -/
def chooseStoreVictim (sl : Slice) (set : Nat) : Option (StoreEntry × List StoreEntry) :=
  let reserved : List Nat := match satFind sl set with | some e => e.reserved.map (fun r => r.1) | none => []
  let cand := sl.dstore.filter fun e => e.set == set && !(lineHeld sl (entryLine e)) && !(reserved.contains e.way)
  let uncached := cand.filter fun e => (dcFind sl (entryLine e)).isNone
  let pool := if uncached.isEmpty then cand else uncached
  let m := (pool.map (·.age)).foldl max 0
  let aged := pool.map fun e => { e with age := e.age + (3 - m) }
  let c := aged.filter (·.age == 3)
  let few := (c.map fun e => popcount (storeV sl e)).foldl min 64
  let best := c.filter fun e => popcount (storeV sl e) == few
  ((List.range 16).findSome? fun w => best.find? (·.way == w)).map fun e => (e, aged)

/-! ## Entry updates -/

/-- R120: the entry of a line changed in place, in its cache way or in its store entry; a V left zero makes the cache way
release-pending, or frees the store way. -/
def dirInPlace (s : State) (k : Fin 16) (line : Nat) (d : DirEntry) : PassM :=
  match dcFind (s.slc k) line with
  | some w => .ok (dcPut s k { w with v := d.v, state := d.state, guard := if d.state == .I then false else d.guard, dirty := true })
  | none =>
    match storeFind (s.slc k) line with
    | some e => storeWrite s k e.set e.way (if d.state == .I then none else some { e with v := d.v, state := d.state, guard := d.guard })
    | none => .ok s

/-- R121, R122: the entry of a request's line as its closing pass leaves it: its pinned way, or its reserved store way. -/
def dirClose (s : State) (k : Fin 16) (line : Nat) (cway : Option (Nat × Nat)) (storeWay : Option Nat) (d : DirEntry) : PassM :=
  match dcFind (s.slc k) line with
  | some w =>
    let same := w.v == d.v && w.state == d.state && w.guard == d.guard
    .ok (dcPut s k { w with v := d.v, state := d.state, guard := if d.state == .I then false else d.guard, dirty := w.dirty || !same })
  | none =>
    match cway, storeWay with
    | some (set, way), some sw =>
      if d.state == .I then .ok s
      else
        let e : StoreEntry := { set := sidx line, way := sw, v := d.v, tag := dirTag line, state := d.state, guard := d.guard, age := 0 }
        (storeWrite s k (sidx line) sw (some e)).map fun s =>
          dcPut s k { set := set, way := way, v := d.v, state := d.state, guard := d.guard, dirty := false, tag := dirTag line, ssetHi := ssetHi line, sway := some sw, age := 0 }
    | _, _ => .ok s

/-- R91, R64: the home value of a transaction, taken from cache or memory now. -/
def gotValue (s : State) (t : Txn) (d : Line) (poison : Bool) : Txn := { t with read := .value d poison, taken := tsNow s }

/-- R427: a pending request whose line has new data takes that value in place of the one it read. -/
def refreshReads (s : State) (k : Fin 16) (line : Nat) (d : Line) (poison : Bool) : State :=
  s.updSlc k fun sl => { sl with txns := sl.txns.map fun t =>
    if t.msg.laddr == line && t.status == .pending && t.read != .none then
      { gotValue s t d poison with needTag := false, needExt := false, needMap := false } else t }

/-- R134: the disown mask applied to the entry a pass takes: bits cleared, and an X holder's line made O and poisoned; a pending
request that has read the line takes the poison (R97, R101). -/
def applyMask (s : State) (k : Fin 16) (line part : Nat) : PassM :=
  let d := dirRaw (s.slc k) line
  if d.v &&& s.disown == 0 then .ok s
  else do
    let s1 ← dirInPlace s k line (maskEntry s.disown d)
    if d.state == .X then (placeData s1 k line 0 true part false true).map fun s2 => refreshReads s2 k line 0 true else .ok s1

/-- R119, R121, R124, R134: a way of the line's set is taken for a miss, its previous contents written back as the disown mask
leaves them. None when every way is pinned. -/
def takeWay (s : State) (k : Fin 16) (line : Nat) : Except SubClass (Option (State × (Nat × Nat))) := do
  let set := cidx line
  match chooseCacheVictim (s.slc k) set with
  | none => .ok none
  | some (w, aged) =>
    let s1 := aged.foldl (fun s x => dcPut s k x) s
    match (s1.slc k).dcache.find? fun x => x.set == set && x.way == w with
    | none => .ok (some (s1, (set, w)))
    | some x => do
      let s2 ← applyMask s1 k (wayLine x) (partOf s1 (wayLine x))
      let s3 ← writeBackWay s2 k (((s2.slc k).dcache.find? fun y => y.set == set && y.way == w).getD x)
      .ok (some (s3, (set, w)))

/-! ## Recovery (R132, R133) -/

/-- R132: the lines of the device's windows whose slice and store set are those of a set. -/
def setLines (s : State) (k : Fin 16) (set : Nat) : List Nat :=
  let wins := (List.range 255).filterMap fun i =>
    let sz := cfgGet s keyWinSize (i + 1)
    if sz = 0 then none else some (cfgGet s keyWinBase (i + 1), sz * 2 ^ 30)
  (wins.flatMap fun (b, sz) => (List.range (sz / 2 ^ 27)).map fun j => laddrOf (b / 2 ^ 27 + j) set).filter fun l =>
    sliceOf l == k && (homeOf s (l * 64)).1 == ownIndex s

/-- R132: a candidate: a mapped line of a RECOVERING set that no surviving way and no cache way tracks, not yet recalled. -/
def isCandidate (s : State) (k : Fin 16) (line : Nat) : Bool :=
  let sl := s.slc k
  match satFind sl (sidx line) with
  | some e =>
    e.recovering && (windowOf s (line * 64)).isSome && (homeOf s (line * 64)).1 == ownIndex s &&
    (storeFind sl line).isNone && (dcFind sl line).isNone && !(e.recalled.contains line) && (e.only.isEmpty || e.only.contains line)
  | none => false

/-- R132 step 4: when every candidate has been recalled and no recovery recall of the set is open, the lost ways are written free and
RECOVERING is cleared. -/
def finishRecovery (s : State) (k : Fin 16) (set : Nat) : State :=
  match satFind (s.slc k) set with
  | some e =>
    if e.recovering && !((setLines s k set).any (isCandidate s k)) &&
       !((s.slc k).txns.any fun t => t.kind == .recovery && sidx t.msg.laddr == set) then
      let s1 := e.lost.foldl (fun s w => hbmAccess s (storeAddr k set w) 0 true) s
      updSat s1 k set fun e => { e with recovering := false, lost := [], recalled := [], only := [], writes := e.writes + e.lost.length }
    else s
  | none => s

/-- R132 step 1: a lost way whose line has a cache way is rewritten from it, and stays lost for no longer. -/
def rewriteLost (s : State) (k : Fin 16) (set : Nat) (way : Nat) : PassM :=
  match (s.slc k).dcache.find? fun w => w.ssetHi * 4096 + w.set == set && w.sway == some way with
  | some w =>
    (storeWrite s k set way (if w.state == .I then none else
      some { set := set, way := way, v := w.v, tag := w.tag, state := w.state, guard := w.guard, age := 0 })).map fun s1 =>
      if w.state == .I then dcDrop s1 k w.set w.way else dcPut s1 k { w with dirty := false }
  | none => .ok s

/-- R132 step 1: entries of a store set are lost: those with a cache way are rewritten from it, the others wait for recall. -/
def loseEntries (s : State) (k : Fin 16) (set : Nat) (ways : List Nat) : PassM := do
  let held := ways.filter fun w => (s.slc k).dcache.any fun x => x.ssetHi * 4096 + x.set == set && x.sway == some w
  let gone := ways.filter fun w => !(held.contains w)
  let s0 ← satEnsure s k set
  let s1 := s0.updSlc k fun sl => { sl with dstore := sl.dstore.filter fun e => !(e.set == set && gone.contains e.way) }
  let s2 := logClass s1 0x09 0 k (some (2, storeAddr k set (ways.headD 0)))
  let s3 ← held.foldlM (fun s w => rewriteLost s k set w) s2
  .ok (finishRecovery (updSat s3 k set fun e => { e with
    recovering := true, only := [], lost := e.lost ++ gone.filter (fun w => !(e.lost.contains w)) }) k set)

/-- R131: a dirty way whose state word is lost: its entry is lost for that single line, and recovered as R132 gives. -/
def loseWay (s : State) (k : Fin 16) (w : CacheWay) : PassM := do
  let line := wayLine w
  let set := sidx line
  let s1 ← satEnsure s k set
  let gone := match w.sway with | some x => [x] | none => []
  let s2 := dcDrop s1 k w.set w.way
  let s3 := s2.updSlc k fun sl => { sl with dstore := sl.dstore.filter fun e => !(e.set == set && gone.contains e.way) }
  let s4 := logClass s3 0x09 0 k (some (1, line * 64)) (partKnown s line)
  .ok (updSat s4 k set fun e => { e with
    recovering := true, lost := e.lost ++ gone, only := if e.recovering && e.only.isEmpty then [] else e.only ++ [line] })

end Sys2Proof.Machine
end

