-- ==== Sys2Proof/Machine/Home.lean ====
section
/-! DEFINITION. The transaction entries of a slice (R86, R87, R427), the completions and snoops they send, the checks of
R94, and the read of the home value (R91, R144, R171, R173). -/

namespace Sys2Proof.Machine
open Sys2Proof

/-! ## Transaction entries -/

/-- A transaction entry of a slice. -/
def getTxn (s : State) (k : Fin 16) (id : Nat) : Option Txn := (s.slc k).txns.find? (·.id == id)

/-- A transaction entry written; a new one goes to the end of the acceptance order. -/
def putTxn (s : State) (k : Fin 16) (t : Txn) : State :=
  s.updSlc k fun sl => { sl with txns := upsert (·.id == t.id) t sl.txns, nextTxn := max sl.nextTxn (t.id + 1) }

/-- A transaction entry leaves every queue and table in which it waits. -/
def detach (s : State) (k : Fin 16) (id : Nat) : State :=
  s.updSlc k fun sl => { sl with
    sbq := sl.sbq.filter (· != id), wayQ := sl.wayQ.filter (· != id),
    sat := (sl.sat.map fun (e : StoreSet) => { e with attached := e.attached.filter (· != id), waiters := e.waiters.filter (· != id) }).filter
      fun (e : StoreSet) => !(satIdle e),
    tst := (sl.tst.map fun (e : TagSet) => { e with waiting := e.waiting.filter (· != id) }).filter fun (e : TagSet) => !(tagIdle e),
    answers := sl.answers.filter fun a => a.txn != some id }

/-- A transaction entry freed, with its reservations. -/
def delTxn (s : State) (k : Fin 16) (id : Nat) : State :=
  let s1 := s.updSlc k fun sl => { sl with
    txns := sl.txns.filter (·.id != id),
    sat := sl.sat.map fun (e : StoreSet) => { e with reserved := e.reserved.filter fun r => r.2 != id } }
  detach s1 k id

/-- What a transaction asks of the line, as a request of Table HOM-4. -/
def flowOp (t : Txn) : Op :=
  match t.kind with
  | .req op => op
  | .discard | .copyWrite => .wrFull
  | .flush => .flushLine
  | .copyRead => .rdOnce
  | .writeBack => .wbDirty
  | .evict => .evictClean
  | .recall _ | .recovery => .snpRecall

/-- R86: the entry serves a request, an agent's or the device's own. -/
def isReqKind (t : Txn) : Bool :=
  match t.kind with | .req _ | .discard | .flush | .copyRead | .copyWrite => true | _ => false

/-- The transaction open on a line; a write-back beside it is not (R104). -/
def openOn (sl : Slice) (line : Nat) : Option Txn :=
  sl.txns.find? fun t => t.msg.laddr == line && (t.status == .opened || t.status == .closing) && !t.aside

/-- R427: a write-back transaction holds the line. -/
def wbHolds (sl : Slice) (line : Nat) : Bool := sl.txns.any fun t => t.msg.laddr == line && t.pool == .writeBack

/-- The requester's bit of the directory vector. -/
def reqBit (t : Txn) : Mask := if t.port.isSome then oneHot t.msg.src else 0

/-- R223: the link of a port is up. -/
def linkUp (s : State) (p : Fin 24) : Bool :=
  if isOlk s p then
    (match (s.port p).link.state with | .active | .retrain | .maint => true | _ => false)
  else (s.port p).cxl.up

/-! ## Completions and snoops -/

/-- A CMP message of a transaction handed to its port's egress, with the epochs of now (R221). -/
def sendCmp (s : State) (k : Fin 16) (t : Txn) (op : Op) (d : Line) (poison : Bool) (aop : Nat) (owner : Bool) : State :=
  match t.port with
  | none => s
  | some p =>
    let m : OutMsg := { op := op, dest := t.msg.src, tag := t.msg.tag, laddr := t.msg.laddr, aop := if op == .atomicData then t.msg.aop else aop,
                        size := if op == .atomicData then t.msg.size else if opHasData op then 6 else 0, data := d, poison := poison,
                        taken := if opHasData op then t.taken else 0, epochs := epochsFor s p t.msg.src,
                        owner := if owner then some (k, t.id) else none, reqOp := opCode (flowOp t), arrived := t.msg.arrived,
                        reqTs := if attrTs t.msg.attr && (s.port p).rx.tsEnabled then some t.msg.ts else none }
    let s1 := pushCmp s p m
    if op == .cmpErr then countEv s1 0x0110 k { part := some t.part, agent := some t.msg.src } else s1

/-- R332: the pair code of a line. -/
def pairCode (d : DirState) (m : MscState) : Nat :=
  3 * (match d with | .I => 0 | .S => 1 | .X => 2) + (match m with | .absent => 0 | .C => 1 | .O => 2)

/-- Table OBS-7: the TXN_CLOSE record of a transaction of an agent's request. -/
def traceClose (s : State) (k : Fin 16) (t : Txn) : State :=
  let d := dirOf s k t.msg.laddr
  let code := match t.grant with | some g => opCode g | none => if t.errCode = 0 then 0 else opCode .cmpErr
  let ns := min ((s.obs.cycles - t.msg.arrived) / 2) 65535
  traceRecord s 5 { line := some t.msg.laddr, opcode := opCode (flowOp t), agent := some t.msg.src, part := t.part }
    [t.msg.laddr + (pairCode t.startDir t.startMsc) * 2 ^ 46 + (pairCode d.state (mscState s k t.msg.laddr)) * 2 ^ 50 + t.part * 2 ^ 54,
     d.v.toNat,
     opCode (flowOp t) + t.msg.src * 2 ^ 8 + t.msg.tag * 2 ^ 16 + k.val * 2 ^ 28 + code * 2 ^ 32 + t.errCode * 2 ^ 40 + ns * 2 ^ 48]

/-- R89: a transaction whose CMP messages have all departed closes, once no snoop of it is outstanding (Table CONS-5). -/
def finishTxn (s : State) (k : Fin 16) (t : Txn) : State :=
  if t.status == .closing && t.cmpsOut == 0 && t.snoops.all (·.answered) then
    let s1 := if t.port.isSome then traceClose s k t else s
    delTxn s1 k t.id
  else putTxn s k t

/-- R94: a transaction ends with CMP_ERR and no effect. -/
def errClose (s : State) (k : Fin 16) (t : Txn) (code : Nat) : State :=
  let out := t.port.isSome
  let t1 := { t with status := .closing, errCode := code, grant := none, cmpsOut := b2n out, waitStore := false, waitAlloc := false,
                     waitSlot := false, drainHold := false, waitWay := false, needTag := false, needExt := false, needMap := false }
  finishTxn (sendCmp (detach (putTxn s k t1) k t.id) k t1 .cmpErr 0 false code true) k t1

/-- R223: a waiting or open transaction whose agent's epoch has advanced ends with STALE_ROLE, sent only when the port's
link is up. -/
def staleClose (s : State) (k : Fin 16) (t : Txn) : State :=
  match t.port with
  | some p => if linkUp s p then errClose s k t 1 else errClose s k { t with port := none } 1
  | none => errClose s k t 1

/-- R90: the TAGs of the snoops outstanding to an agent. -/
def snoopTags (s : State) (a : Nat) : List Nat :=
  (List.finRange 16).flatMap fun k => (s.slc k).txns.flatMap fun t => (t.snoops.filter fun n => n.agent == a && !n.answered).map fun n => n.tag

/-- R90: the lowest TAG that no snoop outstanding to an agent uses (DESIGN CHOICE, assumption 77: the spec asks only that it is
unique). -/
def freeSnoopTag (s : State) (a : Nat) : Nat :=
  let used := snoopTags s a
  ((List.range 4096).find? fun i => !(used.contains i)).getD 0

/-- R90: every agent of a mask has a TAG free for a snoop. -/
def snoopsFit (s : State) (mask : Mask) : Bool := (maskBits mask).all fun a => decide ((snoopTags s a).length < 4096)

/-- R91: one snoop sent. -/
def sendSnoop (s : State) (k : Fin 16) (line : Nat) (op : Op) (a : Nat) : State × Snoop :=
  let tag := freeSnoopTag s a
  let ep := match bindPort s a with | some p => epochsFor s p a | none => { port := 0, agent := (s.bind a).epoch }
  let n : Snoop := { agent := a, tag := tag, op := op, epochs := ep }
  let s1 := countEv (s.updSlc k fun sl => { sl with sent := sl.sent + 1 }) 0x0107 k { agent := some a, opcode := some (opCode op) }
  match bindPort s a with
  | none => (s1, n)
  | some p =>
    let m : OutMsg := { op := op, dest := a, tag := tag, laddr := line, epochs := ep }
    (s1.updPort p fun x => { x with tx := { x.tx with snpQ := x.tx.snpQ ++ [m] } }, n)

/-- R91: the snoops of a transaction, to every agent of a mask; they leave as far as credits allow. -/
def sendSnoops (s : State) (k : Fin 16) (t : Txn) (op : Op) (mask : Mask) : State :=
  let r := (maskBits mask).foldl (fun (acc : State × Txn) a =>
    let x := sendSnoop (putTxn acc.1 k acc.2) k t.msg.laddr op a
    (x.1, { acc.2 with snoops := acc.2.snoops ++ [x.2] })) (s, t)
  let s1 := putTxn r.1 k r.2
  ((maskBits mask).filterMap (bindPort s1)).eraseDups.foldl drainSnp s1

/-! ## Checks (R94, R168, R325) -/

/-- R168: the code check 2 of R94 refuses a request with. -/
def mapCheck (s : State) (src dest line : Nat) : Option Nat :=
  let a := line * 64
  if dest != ownIndex s then some 4
  else match windowOf s a with
    | none => some 4
    | some p =>
      if (homeOf s a).1 != ownIndex s then some 4
      else if bitOf (cfgGet s keyMembers p) src then none else some 2

/-- R325: the offset of a line within the counter window of its partition, if it lies there. -/
def counterWindow (s : State) (line : Nat) : Option Nat :=
  match windowOf s (line * 64) with
  | none => none
  | some p =>
    let top := cfgGet s keyWinBase p + cfgGet s keyWinSize p * 2 ^ 30
    if bitOf (cfgGet s keyFlags p) 1 ∧ top - 0x10000 ≤ line * 64 then some (line * 64 - (top - 0x10000)) else none

/-- R290: the values a draining or applying commit is about to change. -/
def draining (s : State) : List CfgEnt :=
  let live := fun (e : CfgEnt) => cfgGet s e.key e.index != e.value
  (match s.mgmt.txn with
   | some t => if t.phase == .draining || t.phase == .armed then t.staged.filter live else []
   | none => []) ++
  (match s.dom.deciding, s.dom.prepared with
   | some _, some p => p.2.filter live
   | _, _ => [])

/-- Table MBX-10: new requests for the line wait for a drain. -/
def drainHolds (s : State) (line : Nat) : Bool :=
  let w := windowOf s (line * 64)
  (draining s).any fun e =>
    e.key == keyGran || e.key == keyIt ||
    ((e.key == keyWinBase || e.key == keyWinSize ||
      (e.key == keyFlags && bitOf e.value 3 != bitOf (cfgGet s keyFlags e.index) 3)) && w == some e.index)

/-- R174: the request needs an extent when its line's extent is UNALLOCATED, whatever the directory holds. -/
def writesLine (t : Txn) : Bool :=
  match t.kind with | .req .wrFull | .req .wrPart | .req .atomic | .copyWrite => true | _ => false

/-- The request is a FLUSH_LINE, an agent's. -/
def isFlush (t : Txn) : Bool := match t.kind with | .req .flushLine => true | _ => false

/-- R174: an allocation request for the line of a transaction. -/
def askAlloc (s : State) (k : Fin 16) (t : Txn) : State :=
  (s.updPool fun q => { q with queue := q.queue ++ [{ slice := k, txn := some t.id, laddr := t.msg.laddr, part := t.part }] })

/-! ## Reading the home value (R144, R171, R173) -/

/-- R91: the flow reads the home value, given that a copy without data may be granted to a requester whose bit is set. -/
def needsValue (t : Txn) (holder : Bool) : Bool :=
  match flowOp t with
  | .rdShared | .rdOwn | .rdOnce | .atomic => true
  | .upgrade => !holder
  | .wrPart => t.msg.be != BitVec.allOnes 64
  | _ => false

/-- R148: the read may install its line. -/
def fillKind (t : Txn) : Bool := match flowOp t with | .rdShared | .rdOwn | .upgrade | .rdOnce => true | _ => false

/-- R171: the slice's page-map cache holds the entry of an extent. -/
def pmHit (sl : Slice) (fx : Nat) : Bool := sl.pmCache.any (·.fx == fx)

/-- R171: the entry of an extent inserted in its set of 8 ways, in a way that is empty, else in that of the oldest entry of the set
(DESIGN CHOICE, assumption 79: the spec names no replacement). -/
def pmInsert (s : State) (k : Fin 16) (fx : Nat) : State :=
  let e := fxWord s fx
  s.updSlc k fun sl =>
    let same := sl.pmCache.filter fun x => x.fx % 512 == fx % 512 && x.fx != fx
    let way := ((List.range 8).find? fun w => !(same.any (·.way == w))).getD (((same.getLast?).map (·.way)).getD 0)
    { sl with pmCache := { fx := fx, way := way, entry := e, parity := mapParity e } ::
        (sl.pmCache.filter fun x => x.fx != fx && !(x.fx % 512 == fx % 512 && x.way == way)) }

/-- R171: the written-bitmap read of a line's extent. -/
def readBitmap (s : State) (k : Fin 16) (t : Txn) : State :=
  let ha := match fxEntry s (fxOf s t.msg.laddr) with | some e => 0x250000000 + e.bx * 64 | none => 0x250000000
  putTxn (hbmReadMeta s k ha (.bitmap t.id)).1 k { t with needMap := true }

/-- R171: the page map of a line looked up on a hank miss: the bitmap read when the entry is cached and shows the extent
ALLOCATED, else the entry read first. -/
def readPageMap (s : State) (k : Fin 16) (t : Txn) : State :=
  let fx := fxOf s t.msg.laddr
  if pmHit (s.slc k) fx then
    if fxState s fx == .allocated then readBitmap s k t else putTxn s k t
  else
    putTxn (hbmReadMeta s k (0x240000000 + fx * 8) (.extent t.id)).1 k { t with needExt := true }

/-- A hit of a line in a frame: its RRPV becomes 0 unless NON_TEMPORAL, and its frame is pinned (R145, R147). -/
def hitFrame (s : State) (k : Fin 16) (t : Txn) (x : Frame) : State × Txn :=
  let s1 := if attrNt t.msg.attr then s else frameSet s { x with rrpv := 0 }
  (countEv s1 0x0105 k { part := some t.part, opcode := some (opCode (flowOp t)) }, { t with frame := some x.num })

/-- The line of a frame read for a transaction (R144, R154). -/
def readFrame (s : State) (k : Fin 16) (t : Txn) (f : Nat) : State :=
  let (s1, id) := hbmReadLine s k f (lineIn t.msg.laddr) t.part (.demand t.id)
  putTxn s1 k { t with read := .hbm id, needExt := false, needMap := false }

/-- R154: the frame of an active eviction slot from which a line of its OUT_HANK is still served: the line is valid and its copy
has not filled a write-buffer entry. -/
def slotFrame (s : State) (k : Fin 16) (line : Nat) : Option Nat :=
  match slotFor s k (hankOf line) with
  | some (x, true) => if (frameGet s x.frame).valid.getLsbD (lineIn line) then some x.frame else none
  | _ => none

/-- R144, R148, R173, R154: a miss whose page map is known is served from the frame of an eviction slot, from the write buffer, as
zeros, as poison, or from backing memory, with the frame R146 gives; one that meets an eviction slot, or a cache that is DISABLED,
installs nothing. -/
def serveMiss (s : State) (k : Fin 16) (t : Txn) (inst : Bool) : State :=
  let line := t.msg.laddr
  let h := hankOf line
  let install := inst && (slotFor s k h).isNone && s.hbm.cache != .disabled
  match slotFrame s k line, wbLive s k line with
  | some f, _ => readFrame s k t f
  | none, some e => putTxn s k (gotValue s t (if e.kind == .zero then 0 else e.data) e.poison)
  | none, none =>
    let nt := attrNt t.msg.attr
    let src := homeSource s line
    let present := if install then hankFrame s k h else none
    let fills := fillKind t && install
    let (s1, frame, run) : State × Option Nat × Bool :=
      match present with
      | some x => (s, if fills then some x.num else none, fills && !nt)
      | none =>
        if !fills || nt || src == .poison then (s, none, false)
        else match chooseFrame s k h t.part 2 (some line) with
          | .none => (s, none, false)
          | .taken s1 f => (s1, some f, true)
          | .evicting s1 f => (s1, some f, false)
    let pin := match frame with
      | some f => if (frameGet s1 f).state == .present then some f else none
      | none => present.map (·.num)
    let t1 := { t with frame := pin }
    match src with
    | .poison => putTxn s1 k (gotValue s t1 0 true)
    | .zero =>
      let s2 := countEv s1 0x010E k { part := some t.part }
      let s3 := match pin with
        | some f => if frame.isSome then (let s3 := installC s2 f line 0 false; if run then fillRun s3 k f line t.part else s3) else s2
        | none => s2
      putTxn s3 k (gotValue s t1 0 false)
    | .back =>
      let (s2, id) := issueBack s1 k line t.part frame (some t.id) none
      let s3 := putTxn s2 k { t1 with read := .backing id }
      match pin with
      | some f => if run then fillRun s3 k f line t.part else s3
      | none => s3

/-- R144: the miss of a transaction goes on once neither the tag set nor the page map is awaited. -/
def resolveRead (s : State) (k : Fin 16) (t : Txn) (install : Bool) : State :=
  if t.needTag || t.needExt || t.needMap then putTxn s k t
  else if t.read != .lookup then putTxn s k t
  else serveMiss s k t install

/-- R142: the tag set of a hank asked for through the tag-set table; a full table replays the pass. -/
def askTags (s : State) (k : Fin 16) (t : Txn) : PassM :=
  let ls := localSet s.fuses.is144 (hankOf t.msg.laddr)
  (tagRead s k ls).map fun s1 =>
    putTxn (s1.updSlc k fun sl => { sl with tst := updFirst (·.ls == ls) (fun e => { e with waiting := e.waiting ++ [t.id] }) sl.tst }) k { t with needTag := true }

/-- R144, R154, R157: what the tag of a hank, once known, gives a transaction that reads: a hit is read from the frame; a hank that
an eviction slot holds is served as Table MSC-4 gives; a cache that is DISABLED is not looked up. -/
def tagDecided (s : State) (k : Fin 16) (t : Txn) : State :=
  let line := t.msg.laddr
  let t0 := { t with needTag := false }
  let miss := fun (s : State) => countEv s 0x0106 k { part := some t.part, opcode := some (opCode (flowOp t)) }
  if s.hbm.cache == .disabled then resolveRead s k t0 false
  else if (slotFor s k (hankOf line)).isSome then
    match t0.read, slotFrame s k line with
    | .lookup, some f => readFrame s k t0 f
    | _, _ => resolveRead (miss s) k t0 false
  else match hankFrame s k (hankOf line) with
  | some x =>
    let s0 := tagcInsert s k (setOfFrame s.fuses.is144 x.num) (x.num % 16)
    if x.valid.getLsbD (lineIn line) then
      let (s1, t1) := hitFrame s0 k t0 x
      if t1.read == .lookup then readFrame s1 k t1 x.num else putTxn s1 k t1
    else resolveRead (miss s0) k { t0 with frame := some x.num } true
  | none => resolveRead (miss s) k t0 true

/-- R144, R154: the memory-side cache looked up for a transaction; value says that the home value is read. -/
def startLookup (s : State) (k : Fin 16) (t : Txn) (value : Bool) : PassM :=
  let line := t.msg.laddr
  let h := hankOf line
  let t1 := { t with read := if value then .lookup else .none }
  match slotFor s k h with
  | some _ =>
    if !value then .ok (putTxn s k t1)
    else match slotFrame s k line with
      | some f => .ok (readFrame s k t1 f)
      | none => .ok (serveMiss (countEv s 0x0106 k { part := some t.part, opcode := some (opCode (flowOp t)) }) k t1 false)
  | none =>
    if s.hbm.cache == .disabled then
      if value then .ok (serveMiss s k t1 false) else .ok (putTxn s k t1)
    else match tagcFind s k h with
      | some w =>
        let s1 := tagcTouch s k w
        match hankFrame s1 k h with
        | some x =>
          if x.valid.getLsbD (lineIn line) || !value then .ok (tagDecided s1 k t1)
          else
            let s2 := readPageMap s1 k t1
            .ok (tagDecided s2 k ((getTxn s2 k t.id).getD t1))
        | none => .ok (tagDecided s1 k t1)
      | none =>
        let s1 := if value then readPageMap s k t1 else putTxn s k t1
        askTags s1 k ((getTxn s1 k t.id).getD t1)

end Sys2Proof.Machine
end

