-- ==== Sys2Proof/Machine/Retire.lean ====
section
/-! DEFINITION. Retirement of frames, banks and extents (R163, R250 to R254), its records in the ledger (Table LED-4), and the
copies of extents to spares (R238, R251). -/

namespace Sys2Proof.Machine
open Sys2Proof

/-! ## Records of retirement (R250, R254) -/

/-- Retirements of a kind held by the ledger: 0 EXTENT, 1 FRAME, 2 BANK. -/
def retiredCount (s : State) (kind : Nat) : Nat := s.led.retirements.countP fun r => r.1 == kind

/-- Table PROT-10: the limit of a kind. -/
def retireLimit (kind : Nat) : Nat := match kind with | 0 => 4096 | 1 => 65536 | _ => 64

/-- Table LED-4: class and body of the record of a retirement; the number says how many banks are excluded before it. -/
def retireBody (r : Nat × Nat × Nat × Nat × Nat × Nat) (order : Nat) : Nat × List Byte :=
  match r with
  | (0, port, e, maker, product, cap) =>
    (2, leBytes 1 1 ++ leBytes 1 port ++ leBytes 1 0 ++ leBytes 4 e ++ leBytes 2 maker ++ leBytes 2 product ++ leBytes 2 cap)
  | (1, f, _, _, _, _) => (3, leBytes 1 1 ++ leBytes 4 f)
  | (_, st, pc, sid, ba, _) => (4, leBytes 1 st ++ leBytes 1 pc ++ leBytes 1 sid ++ leBytes 1 ba ++ leBytes 1 order)

/-- R250: a retirement whose hardware work is done is written to the ledger, and RETIRE_DONE is recorded. -/
def retireDone (s : State) (r : Nat × Nat × Nat × Nat × Nat × Nat) (kind src : Nat) (addr : Option (Nat × Nat)) : State :=
  if s.led.retirements.contains r then s else
  let b := retireBody r (retiredCount s 2)
  let s1 := ledgerRecord { s with led := { s.led with retirements := s.led.retirements ++ [r] } } b.1 b.2
  logClass s1 0x0E kind src addr

/-! ## Frames (R252) -/

/-- The slice of a frame. -/
def frameSlice (s : State) (f : Nat) : Fin 16 := ⟨sliceOfFrame s.fuses.is144 f % 16, Nat.mod_lt _ (by decide)⟩

/-- R252: a frame is retired, or the eviction of its hank starts; one that is pinned, or finds no slot, is left for now. -/
def retireFrame (s : State) (f : Nat) : State :=
  let k := frameSlice s f
  let x := frameGet s f
  match x.state with
  | .retired => s
  | .free => frameSet s { num := f, state := .retired }
  | .evicting => s
  | .present =>
    if framePinned s k f then s
    else if x.owned == 0 then frameSet (tagcForget s k f) { num := f, state := .retired }
    else if 64 ≤ (s.slc k).slots.length then s
    else
      let e : EvSlot := { outHank := x.hank, inHank := none, frame := f, omask := x.owned, retire := true, flushed := flushAhead s k x }
      let s1 := (tagcForget s k f).updSlc k fun sl => { sl with slots := sl.slots ++ [e] }
      countEv (frameSet s1 { x with state := .evicting }) 0x010A k { part := some x.part }

/-- A frame is retired. -/
def isRetired (s : State) (f : Nat) : Bool := (frameGet s f).state == .retired

/-! ## Banks (R163, R253) -/

/-- R138: the 4 KiB block of a stack, pseudo-channel, SID, BA and ROW. -/
def blockOf (is144 : Bool) (st pc sid ba row : Nat) : Nat :=
  let q := (row * 4 + ba) * nsid is144 + sid
  q * 64 + (pc ^^^ bits q 7 4) * 4 + (st ^^^ bits q 3 2)

/-- A 4 KiB block lies in a bank. -/
def blockIn (is144 : Bool) (block : Nat) (bank : Nat × Nat × Nat × Nat) : Bool :=
  let ha := block * 4096
  let b := bankOf is144 ha
  stackOf ha == bank.1 && pcOf ha == bank.2.1 && b.1 == bank.2.2.1 && b.2.1 == bank.2.2.2

/-- R1, R17: bytes of device HBM. -/
def hbmTop (is144 : Bool) : Nat := if is144 then 144000000000 else 96000000000

/-- R138: rows of a bank that lie within the device's HBM, in both variants. -/
def bankRows : Nat := 45777

/-- R138: rows that can hold metadata. -/
def metaRows (is144 : Bool) : Nat := if is144 then 3755 else 5632

/-- R163: the frames that lie in a bank. -/
def bankFrames (is144 : Bool) (bank : Nat × Nat × Nat × Nat) : List Nat :=
  (List.range bankRows).filterMap fun r =>
    let b := blockOf is144 bank.1 bank.2.1 bank.2.2.1 bank.2.2.2 r
    let base := cacheBase / 4096
    if base ≤ b ∧ b < base + hankCount is144 then some (b - base) else none

/-- R253: the first block that a relocation may use: 8 MiB above the start of the retirement spares. -/
def spareBase (is144 : Bool) : Nat := spareStart is144 + 2048

/-- R253: the next spare block, skipping blocks of excluded banks, below the top of HBM. -/
def nextSpareBlock (s : State) : Option Nat :=
  let start := max s.hbm.nextSpare (spareBase s.fuses.is144)
  ((List.range 8192).find? fun i => !(s.hbm.banks.any fun b => blockIn s.fuses.is144 (start + i) b) &&
    decide ((start + i + 1) * 4096 ≤ hbmTop s.fuses.is144)).map (start + ·)

/-- R253: one line of the relocation table; an entry that maps nothing holds all ones. -/
def relocLine (s : State) (n : Nat) : Line :=
  lineOf 4 ((List.range 16).map fun i => match s.hbm.reloc.find? (·.1 == 16 * n + i) with | some x => x.2 | none => 0xFFFFFFFF)

/-- R237, R253: an entry of the relocation table written, in its three copies; the controllers' cached copies of it go. -/
def relocPut (s : State) (entry block : Nat) : State :=
  let s1 := s.updHbm fun h => { h with
    reloc := upsert (fun x => x.1 == entry) (entry, block) h.reloc, nextSpare := block + 1,
    stk := h.stk.map fun x => { x with relocCache := x.relocCache.filter (· != entry) } }
  tripleWrite s1 (relocCopy s.fuses.is144 (entry / 16)) (relocLine s1 (entry / 16))

/-- R253: one block of the bank being excluded is relocated, or one spare block in use that lies in it; then the job ends. -/
def relocateNext (s : State) : State :=
  match s.hbm.bankJob with
  | none => s
  | some (i, row) =>
    match s.hbm.banks[i]?, nextSpareBlock s with
    | some bank, some spare =>
      let v := s.fuses.is144
      let copied := fun (s : State) (b : Nat) => (List.range 64).foldl (fun s j =>
        rctForget (hbmIssue (hbmIssue s (b * 4096 + 64 * j) 0 false) (spare * 4096 + 64 * j) 0 true) true 0 (spare * 4096 + 64 * j)) s
      if row < metaRows v then
        let b := blockOf v bank.1 bank.2.1 bank.2.2.1 bank.2.2.2 row
        let s1 := s.updHbm fun h => { h with bankJob := some (i, row + 1) }
        if b * 4096 < cacheBase then relocPut (copied s1 b) (i * 8192 + row) spare else s1
      else
        match s.hbm.reloc.find? fun e => blockIn v e.2 bank with
        | some e => relocPut (copied s e.2) e.1 spare
        | none => s.updHbm fun h => { h with bankJob := if i + 1 < s.hbm.banks.length then some (i + 1, 0) else none }
    | _, _ => s.updHbm fun h => { h with bankJob := none }

/-! ## Extents (R238, R251) -/

/-- A free extent of a port taken off its free list. -/
def takeFree (m : PortMem) (e : Nat) : Option PortMem :=
  if m.pushed.contains e then some { m with pushed := m.pushed.filter (· != e) }
  else if m.fresh.any fun r => decide (r.1 ≤ e ∧ e < r.2) then
    some { m with fresh := m.fresh.flatMap fun r =>
      if r.1 ≤ e ∧ e < r.2 then (if r.1 < e then [(r.1, e)] else []) ++ (if e + 1 < r.2 then [(e + 1, r.2)] else []) else [r] }
  else none

/-- The module of a port, as a retirement records it: MAKER, PRODUCT, capacity. -/
def moduleId (m : PortMem) : Nat × Nat × Nat := match m.desc with | some d => (d.maker, d.product, d.capGiB) | none => (0, 0, 0)

/-- R254: an extent's retirement in the ledger. -/
def extentRetired (s : State) (p : Fin 24) (e bx : Nat) : State :=
  let id := moduleId (s.port p).mem
  let s1 := s.updPool fun q => { q with retiredExt := q.retiredExt ++ [(p.val, e, id.1, id.2.1, id.2.2)] }
  retireDone s1 (0, p.val, e, id.1, id.2.1, id.2.2) 1 p (some (4, bx))

/-- R251: a free extent leaves its free list and becomes retired. -/
def retireFree (s : State) (p : Fin 24) (e bx : Nat) : State :=
  match takeFree (s.port p).mem e with
  | none => s
  | some m =>
    let s1 := (s.updPort p fun x => { x with mem := m }).updPool fun q => { q with
      recs := q.recs ++ [{ bx := bx, retired := true }], shFree := q.shFree - 1, shRetired := q.shRetired + 1 }
    extentRetired (rootPorts (recWrite s1 bx) [p]) p e bx

/-- R251: every write-buffer entry of an extent goes to the spare as well. -/
def addSpare (s : State) (fx : Nat) : State :=
  (List.finRange 16).foldl (fun s k =>
    (s.slc k).wbuf.foldl (fun s e =>
      if wbOfExtent s fx e then
        queueReady (updWb s k e.id fun e => { e with targets := e.targets ++ (spareTargets s e.line).filter fun t =>
          !(e.targets.any fun x => x.port == t.port && x.maddr == t.maddr) }) k
      else s) s) s

/-- R238, R251: the allocator takes a spare, and the copy of an extent to it starts; none when no port is eligible. -/
def startCopy (s : State) (e : FxEntry) (copy : Nat) (old : Option Nat) : Option State :=
  (sparePort s e copy).bind fun p =>
    (popFree (s.port p).mem).map fun (loc, m) =>
      let bx := m.bxBase + loc
      let r : ExtRecord := { bx := bx, fx := e.fx, triple := e.triple, copy := copy, part := e.part, tidx := e.tidx }
      let s1 := (s.updPort p fun x => { x with mem := m }).updPool fun q => { q with
        recs := q.recs ++ [r], jobs := q.jobs ++ [{ oldBx := old, newBx := bx, fx := e.fx, copy := copy }],
        shFree := q.shFree - 1, shAllocated := q.shAllocated + 1 }
      addSpare (rootPorts s1 [p]) e.fx

/-- A write-buffer entry still writes to the spare of a job. -/
def spareBusy (s : State) (j : ExtJob) : Bool :=
  match bxPort s j.newBx with
  | none => false
  | some (p, loc) => (List.finRange 16).any fun k => (s.slc k).wbuf.any fun e =>
      e.targets.any fun t => t.port == p && t.maddr / 32768 == loc && !t.acked

/-- A job leaves the list. -/
def dropJob (s : State) (j : ExtJob) : State := s.updPool fun q => { q with jobs := removeFirst j q.jobs }

/-- R251 step 6: the extent is switched to the spare, and the old backing extent is retired. -/
def finishCopy (s : State) (e : FxEntry) (j : ExtJob) : State :=
  let bm := bitmapOf s e
  let s1 := updRec (dropJob s j) j.newBx fun r => { r with bitmap := bm }
  let s2 := s1.updPool fun q => { q with
    fxs := if j.copy = 0 then updFirst (fun (x : FxEntry) => x.fx == e.fx) (fun x => { x with bx := j.newBx }) q.fxs else q.fxs,
    triples := q.triples.map fun t =>
      if t.1 == e.tidx && e.triple then (match j.copy with | 1 => (t.1, j.newBx, t.2.2) | 2 => (t.1, t.2.1, j.newBx) | _ => t) else t,
    degraded := q.degraded.filter (· != (e.fx, j.copy)) }
  let s3 := recWrite (fxWrite (hbmAccess s2 (0x250000000 + j.newBx * 64) 0 true) e.fx) j.newBx
  let s3' := if e.triple then rootPut s3 (128 + e.tidx) else s3
  match j.oldBx with
  | none => s3'
  | some old =>
    let s4 := s3'.updPool fun q => { q with
      recs := q.recs.map fun r => if r.bx == old then { bx := old, retired := true } else r,
      shAllocated := q.shAllocated - 1, shRetired := q.shRetired + 1 }
    match bxPort s4 old with
    | some (p, loc) => extentRetired (recWrite s4 old) p loc old
    | none => s4

/-- R251: a job whose extent has returned to the free list, or is LOST: the old extent is retired as a free one, and the
spare is freed. -/
def orphanCopy (s : State) (j : ExtJob) : State :=
  let s1 := (dropJob s j).updPool fun q => { q with recs := q.recs.filter (·.bx != j.newBx), shAllocated := q.shAllocated - 1, shFree := q.shFree + 1 }
  let s2 := pushFree s1 j.newBx
  match j.oldBx.bind fun old => (bxPort s2 old).map fun x => (old, x.1, x.2) with
  | some (old, p, loc) => retireFree s2 p loc old
  | none => s2

end Sys2Proof.Machine
end

