-- ==== Sys2Proof/Machine/Mail.lean ====
section
/-! DEFINITION. Responses (R272 to R275, R276, R215), the work a command leaves running (R298, R299), and the ends of that
work. -/

namespace Sys2Proof.Machine
open Sys2Proof

/-- A command as the device runs it. -/
structure CmdCtx where
  /-- OPCODE -/
  op : Nat := 0
  /-- COOKIE -/
  cookie : Nat := 0
  /-- the mailbox, or the relay, it came by -/
  via : Via := .primary
  /-- RELAY_ID of a relayed command -/
  relayId : Nat := 0
  /-- PAYLOAD -/
  payload : List Byte := []
  deriving DecidableEq, Repr

/-- The number of n bytes at a byte offset of the command area (payloads begin at byte 16). -/
def CmdCtx.arg (c : CmdCtx) (off n : Nat) : Nat := leAt c.payload (off - 16) n

/-- A command completes with a reply. -/
def CmdCtx.reply (c : CmdCtx) (r : Reply) (s : State) : State := respond s c.via c.op c.cookie c.relayId (ownIndex s) r

/-! ## Work (R298) -/

/-- The work of a command begins; the command completes when it ends. -/
def CmdCtx.work (c : CmdCtx) (s : State) (arg0 arg1 arg2 arg3 : Nat) (entries : List (Nat × Nat) := []) (started : Bool := false) : State :=
  let w : Work := { op := c.op, cookie := c.cookie, via := c.via, relayId := c.relayId, arg0 := arg0, arg1 := arg1, arg2 := arg2,
                    arg3 := arg3, entries := entries, responded := started }
  { s with mgmt := { s.mgmt with works := s.mgmt.works ++ [w] } }

/-- R299: work of one of the opcodes runs. -/
def workRuns (s : State) (ops : List Nat) : Bool := s.mgmt.works.any fun w => ops.contains w.op

/-- R298: work ends (0x0413 is the discard of a drain, which is no command's): its command completes, or a BACKGROUND_DONE notification is sent when it has completed already. -/
def endWork (s : State) (w : Work) (r : Reply) : State :=
  let s1 := { s with mgmt := { s.mgmt with works := removeFirst w s.mgmt.works } }
  if w.op = 0x0413 then s1
  else if w.responded then notify s1 { ntype := 5, arg := w.op % 2 ^ 16 + r.status * 2 ^ 16, word := some w.cookie }
  else respond s1 w.via w.op w.cookie w.relayId (ownIndex s) r

/-- Work changed. -/
def updWork (s : State) (w w' : Work) : State :=
  { s with mgmt := { s.mgmt with works := s.mgmt.works.map fun x => if x = w then w' else x } }

/-- The first work of an opcode. -/
def findWork (s : State) (op : Nat) : Option Work := s.mgmt.works.find? (·.op == op)

/-- The work of every command of an opcode ends with a reply. -/
def endWorks (s : State) (op : Nat) (r : Reply) : State :=
  (s.mgmt.works.filter (·.op == op)).foldl (fun s w => endWork s w r) s

/-- The write-buffer entries waited for have all been acknowledged, or freed. -/
def entriesGone (s : State) (es : List (Nat × Nat)) : Bool :=
  es.all fun e => !((List.finRange 16).any fun k => k.val == e.1 && (s.slc k).wbuf.any (·.id == e.2))

/-- Every write-buffer entry for a line in a range of fabric addresses: slice and identifier. -/
def entriesIn (s : State) (base len : Nat) : List (Nat × Nat) :=
  (List.finRange 16).flatMap fun k => ((s.slc k).wbuf.filter fun e => decide (base ≤ e.line * 64 ∧ e.line * 64 < base + len)).map fun e => (k.val, e.id)

/-! ## Discards (R182) -/

/-- A line of the page is still being discarded, or has a write-buffer entry. -/
def pageBusy (s : State) (page : Nat) : Bool :=
  (List.finRange 16).any fun k => ((s.slc k).txns.any fun t => t.kind == .discard && hankOf t.msg.laddr == page) ||
    (s.slc k).wbuf.any fun e => hankOf e.line == page

/-- A write-buffer entry of the extent remains. -/
def extentBusy (s : State) (fx : Nat) : Bool := (List.finRange 16).any fun k => (s.slc k).wbuf.any (wbOfExtent s fx)

/-- R182: an ALLOCATED extent without a written bit or a write-buffer entry returns to its free lists. -/
def freeIfEmpty (s : State) (fx : Nat) : State :=
  match fxEntry s fx with
  | some e => if e.state == .allocated && bitmapOf s e == 0 && !(extentBusy s fx) then freeExtent s fx else s
  | none => s

/-- R182: the lines of a page whose discard is done and that no write has followed. -/
def discardMask (s : State) (page : Nat) : Mask := match s.pool.discards.find? (·.1 == page) with | some x => x.2 | none => 0

/-- R182: the discard of a page has ended. -/
def endDiscard (s : State) (page : Nat) : State := s.updPool fun q => { q with discards := q.discards.filter (·.1 != page) }

/-- R176, R182: a page that writes ordered after its lines' discards have written again: its discarded lines get ZERO entries; none while the
write buffer has no room for them. -/
def zeroAgain (s : State) (page : Nat) (mask : Mask) (part : Nat) : Option State :=
  let k := sliceOf (page * 64)
  let ls := (maskBits mask).map fun j => page * 64 + j
  if 512 < (s.slc k).wbuf.length + ls.length then none else (ls.foldlM (fun s l => putWb s k l .zero 0 false part) s).toOption

/-- R182: a page whose lines are all done: its written bit is cleared, and its extent freed with its last one. A page written again
since keeps its bit, with zeros for the lines that were not. None while it waits for write-buffer entries. -/
def pageDiscarded (s : State) (page : Nat) : Option State :=
  let fx := fxOf s (page * 64)
  let g := pageOf s (page * 64)
  let mask := discardMask s page
  if !(pageWritten s fx g) then some (endDiscard s page)
  else if mask == BitVec.allOnes 64 then some (freeIfEmpty (setWritten (endDiscard s page) fx g false) fx)
  else (zeroAgain s page mask (((fxEntry s fx).map (·.part)).getD 0)).map fun s1 => endDiscard s1 page

/-- R182: the extents at the end of a discard: those without a written bit are freed, LOST ones that the range covers
return to UNALLOCATED. -/
def discardExtents (s : State) (base len : Nat) : State :=
  (s.pool.fxs.map (·.fx)).foldl (fun s fx =>
    match fxState s fx with
    | .allocated => if extentMeets s fx base len then freeIfEmpty s fx else s
    | .lost => if extentWithin s fx base len then freeExtent s fx else s
    | .unallocated => s) s

/-- R182: some ALLOCATED extent of the range without a written bit still waits to be freed. -/
def discardWaits (s : State) (base len : Nat) : Bool :=
  s.pool.fxs.any fun e => e.state == .allocated && bitmapOf s e == 0 && extentMeets s e.fx base len

/-- R182: a discard goes on: pages that are done are cleared, and at the end its extents. -/
def advanceDiscard (s : State) (w : Work) : State :=
  let ready := w.entries.filter fun e => decide (e.1 * 64 + 64 ≤ w.arg2) && !(pageBusy s e.1)
  let (s1, done) := ready.foldl (fun (acc : State × List (Nat × Nat)) e =>
    match pageDiscarded acc.1 e.1 with | some x => (x, acc.2 ++ [e]) | none => acc) (s, [])
  let w1 := { w with entries := w.entries.filter fun e => !(done.contains e) }
  let s2 := if done.isEmpty then s1 else updWork s1 w w1
  if w1.entries.isEmpty && decide (w.arg0 + w.arg1 ≤ w.arg2 * 64) then
    let s3 := discardExtents s2 w.arg0 w.arg1
    if discardWaits s3 w.arg0 w.arg1 then s3 else endWork s3 w1 replyOk
  else s2

/-! ## The ends of work -/

/-- The internal write of a PAGE_COPY is still open. -/
def copyOpen (s : State) (k id : Nat) : Bool := (List.finRange 16).any fun j => j.val == k && (s.slc j).txns.any (·.id == id)

/-- R305: a PAGE_COPY whose write has closed goes on with its next line; a refused write ends it. -/
def advanceCopy (s : State) (w : Work) : State :=
  match w.entries with
  | [(k, id)] =>
    if copyOpen s k id then s
    else if s.mgmt.dmaLines.isEmpty then
      let w1 := { w with entries := [], arg2 := w.arg2 + 1 }
      let s1 := updWork s w w1
      if w.arg1 ≤ w1.arg2 * 64 then endWork s1 w1 replyOk else s1
    else endWork { s with mgmt := { s.mgmt with dmaLines := [] } } w (replyNo 0x0412 (leBytes 8 (w.arg3 + w.arg2 * 64)))
  | _ => s

/-- Every drain walker, or every flush walker, has finished. -/
def walkersDone (s : State) (flush : Bool) : Bool :=
  (List.finRange 16).all fun k => !(if flush then (s.slc k).flush.active else (s.slc k).drain.active)

/-- R160: every FLUSH_LINE injected has completed, and every sweep has ended. -/
def persistSwept (s : State) : Bool :=
  (List.finRange 16).all fun k => (s.slc k).persistPos.isNone && !((s.slc k).txns.any fun t => t.kind == .flush)

/-- R159, R160: no eviction slot still holds an O line that a flush waits for. -/
def slotsGone (s : State) : Bool := (List.finRange 16).all fun k => !((s.slc k).slots.any fun x => x.flushed && x.omask != 0)

/-- R306: a CACHE_FLUSH that started no walker waits for the drain walkers. -/
def flushEnded (s : State) (w : Work) : Bool :=
  (if w.arg2 = 1 then walkersDone s false else walkersDone s true) && slotsGone s && entriesGone s w.entries

/-- R250: the frames that wait to be retired, and the end of a RETIRE. -/
def advanceRetire (s : State) (w : Work) : State :=
  let s1 := w.entries.foldl (fun s e => retireFrame s e.1) s
  let left := w.entries.filter fun e => !(isRetired s1 e.1)
  let w1 := { w with entries := left }
  let s2 := if left = w.entries then s1 else updWork s1 w w1
  match w.arg0 with
  | 0 => if s2.pool.recs.any fun r => r.bx == w.arg1 && r.retired then endWork s2 w1 replyOk else s2
  | 1 =>
    if left.isEmpty then
      endWork (retireDone s2 (1, w.arg1, 0, 0, 0, 0) 0 (frameSlice s2 w.arg1) (some (2, frameLineAddr w.arg1 0))) w1 replyOk
    else s2
  | _ =>
    if left.isEmpty && (match s2.hbm.bankJob with | some (i, _) => decide (w.arg1 < i) | none => true) then
      match s2.hbm.banks[w.arg1]? with
      | some b => endWork (retireDone s2 (2, b.1, b.2.1, b.2.2.1, b.2.2.2, 0) 2 b.1 none) w1 replyOk
      | none => endWork s2 w1 replyOk
    else s2

/-- What ends a command's work is checked: R156, R159, R160, R135, R182, R305. -/
def checkWork (s : State) (w : Work) : State :=
  match w.op with
  | 0x0410 | 0x0413 => advanceDiscard s w
  | 0x0412 => advanceCopy s w
  | 0x0500 => if s.hbm.cache == .disabled then endWork s w replyOk else s
  | 0x0502 => if flushEnded s w then endWork s w replyOk else s
  | 0x0503 => if persistSwept s && walkersDone s true && slotsGone s && entriesGone s w.entries then endWork s w (replyOk (leBytes 4 w.count)) else s
  | 0x0702 => advanceRetire s w
  | 0x0601 => if (s.bind w.arg0).status == .disowning then s else endWork s w replyOk
  | _ => s

/-- Every command's work that has ended is ended. -/
def checkWorks (s : State) : State := s.mgmt.works.foldl (fun s w => if s.mgmt.works.contains w then checkWork s w else s) s

end Sys2Proof.Machine
end

