-- ==== Sys2Proof/Machine/HomePass.lean ====
section
/-! DEFINITION. The passes of a home slice: acceptance (R86, R119), opening (R91, R94), closing (R89, R96, R97, R98, R100,
R105), recalls (R126, R132), and the work a slice goes on with once something it waited for is there. -/

namespace Sys2Proof.Machine
open Sys2Proof

/-! ## Closing (R89, R96) -/

/-- R105: a WB message from the requester's port, older than its request, has not been handled by the slice. -/
def olderWb (s : State) (k : Fin 16) (t : Txn) : Bool :=
  match t.port with
  | none => false
  | some p =>
    ((s.port p).wbQ.any fun m => m.slice == k && decide (m.position < t.msg.position)) ||
    (s.slc k).txns.any fun x => x.pool == .writeBack && x.status == .pending && x.port == some p && decide (x.msg.position < t.msg.position)

/-- R105: EVICT_GUARD as a closing pass leaves it. -/
def guardAfter (s : State) (k : Fin 16) (t : Txn) (old grantCopy : Bool) (v : Mask) : Bool :=
  let r := reqBit t
  if grantCopy && r != 0 && olderWb s k t then true
  else if t.snoopAll && ((v &&& r) == 0 || grantCopy) then false
  else old

/-- R96: the directory entry of a request's line as its closing pass leaves it. -/
def closeEntry (s : State) (k : Fin 16) (t : Txn) (d : DirEntry) : DirEntry :=
  let r := reqBit t
  let gone := (t.snoops.filter fun n => n.answered && !n.keepsS).foldl (fun (m : Mask) n => m ||| oneHot n.agent) 0
  let v1 := d.v &&& ~~~ gone
  let copy := !t.staleRole && (t.grant == some .dataS || t.grant == some .dataE || t.grant == some .grantE)
  let op := flowOp t
  let clears := t.staleRole || op == .wrFull || op == .wrPart || op == .atomic || op == .flushLine
  let v := if clears then v1 &&& ~~~ r else if copy then v1 ||| r else v1
  let excl := (copy && t.grant != some .dataS) || (!copy && t.snoops.isEmpty && d.state == .X)
  { v := v, state := stateOf v excl, guard := guardAfter s k t d.guard copy v }

/-- R91: the value a transaction has of its line: snoop data, else what it read. -/
def txnValue (t : Txn) : Line × Bool :=
  match t.snoopData with
  | some x => x
  | none => match t.read with | .value d p => (d, p) | _ => (0, false)

/-- R182: a line leaves the memory-side cache and the write buffer, its value destroyed; entries already sent stay until
their acknowledgement. -/
def discardLine (s : State) (k : Fin 16) (line : Nat) : State :=
  let j := lineIn line
  let m := ~~~ (oneHot j)
  let s1 := markStale s k line
  let s2 := ((s1.slc k).wbuf.filter fun e => e.line == line && wbUnsent e).foldl (fun s e => dropWb s k e.id) s1
  match slotFor s2 k (hankOf line) with
  | some (x, true) => slotForget s2 k x.frame j
  | _ =>
    match hankFrame s2 k (hankOf line) with
    | some x => frameSet s2 { x with valid := x.valid &&& m, owned := x.owned &&& m, poison := x.poison &&& m }
    | none => s2

/-- R100: a flushed line marked C. -/
def markClean (s : State) (k : Fin 16) (line : Nat) : State :=
  match hankFrame s k (hankOf line) with
  | some x => if s.hbm.cache == .disabled then s else frameSet s { x with owned := x.owned &&& ~~~ (oneHot (lineIn line)) }
  | none => s

/-- R97, R98, R100, R182: what a closing pass does to the line, and the completion it sends with its data, poison and
code. -/
def closeData (s : State) (k : Fin 16) (t : Txn) : Except SubClass (State × Op × Line × Bool × Nat) :=
  let line := t.msg.laddr
  let nt := attrNt t.msg.attr
  let (old, oldP) := txnValue t
  match t.kind with
  | .req .wrFull => do
    let s1 ← placeData s k line t.msg.data t.msg.poison t.part nt false
    .ok (s1, .wrAck, 0, false, 0)
  | .copyWrite => do
    let s1 ← placeData s k line t.msg.data t.msg.poison t.part nt false
    .ok ({ s1 with mgmt := { s1.mgmt with dmaLines := s1.mgmt.dmaLines.drop 1 } }, .wrAck, 0, false, 0)
  | .req .wrPart => do
    let whole := t.msg.be == BitVec.allOnes 64
    let s1 ← placeData s k line (mergeLine old t.msg.data t.msg.be) (t.msg.poison || (oldP && !whole)) t.part nt false
    .ok (s1, .wrAck, 0, false, 0)
  | .req .atomic => do
    if oldP then
      let s1 ← placeData s k line old true t.part nt false
      .ok (s1, .cmpErr, 0, false, 3)
    else
      let r := atomicLine t.msg.aop t.msg.size t.msg.be t.msg.data old
      let s1 ← placeData s k line r.1 false t.part nt false
      .ok (countEv s1 0x010F k { part := some t.part, agent := some t.msg.src }, .atomicData, r.2, false, 0)
  | .req .flushLine | .flush => .ok (markClean s k line, .wrAck, 0, false, 0)
  | .discard => .ok (noteDiscard (discardLine s k line) line true, .wrAck, 0, false, 0)
  | .copyRead => .ok ({ s with mgmt := { s.mgmt with dmaLines := s.mgmt.dmaLines ++ [(line, old, oldP)] } }, .dataI, old, oldP, 0)
  | _ => .ok (s, t.grant.getD .dataI, old, oldP, 0)

/-- R89, R96, R223: the closing pass of a request. -/
def closeReq (s : State) (k : Fin 16) (t : Txn) : PassM := do
  let line := t.msg.laddr
  let s0 ← applyMask s k line t.part
  let s1 ← dirClose s0 k line t.cway t.storeWay (closeEntry s0 k t (dirOf s0 k line))
  if t.staleRole then .ok (staleClose s1 k t)
  else do
    let r ← closeData s1 k t
    let grant := if r.2.1 == .cmpErr then none else some r.2.1
    let data := opHasData r.2.1
    let t1 := { t with status := .closing, cmpsOut := b2n t.port.isSome, grant := grant, errCode := r.2.2.2.2, flushWait := false }
    let s2 := sendCmp (putTxn r.1 k t1) k t1 r.2.1 (if data then r.2.2.1 else 0) (data && r.2.2.2.1) r.2.2.2.2 true
    .ok (finishTxn s2 k t1)

/-- R132 step 3: a recovery recall closes with its line in I; it has been recalled. -/
def closeRecovery (s : State) (k : Fin 16) (t : Txn) : State :=
  let set := sidx t.msg.laddr
  let s1 := finishTxn s k { t with status := .closing }
  finishRecovery s1 k set

/-- R91, R103: every snoop is answered and every read has returned. -/
def answersIn (t : Txn) : Bool :=
  t.snoops.all (·.answered) && !t.needTag && !t.waitWay &&
  (match t.read with | .none | .value _ _ | .discarded => true | _ => false)

/-- R100: the youngest DATA or ZERO entry of a line, one whose copy has yet to return among them (R156). -/
def wbYoungest (sl : Slice) (line : Nat) : Option WbEntry :=
  (sl.wbuf.filter fun e => e.line == line && (e.kind == .data || e.kind == .zero)).getLast?

/-- R100: the write of a flushed line to backing memory is started, or one on its way is waited for: none when the line is C or
absent. -/
def startFlush (s : State) (k : Fin 16) (t : Txn) : Option PassM :=
  let line := t.msg.laddr
  let j := lineIn line
  match hankFrame s k (hankOf line) with
  | some x =>
    if x.valid.getLsbD j && x.owned.getLsbD j && s.hbm.cache != .disabled then
      match t.snoopData, t.read with
      | none, .none =>
        let (s1, id) := hbmReadLine s k x.num j t.part (.demand t.id)
        some (.ok (putTxn s1 k { t with read := .hbm id }))
      | _, _ =>
        let v := txnValue t
        some ((putWb s k line .data v.1 v.2 t.part false (some t.id)).map fun s1 => putTxn s1 k { t with flushWait := true })
    else match wbYoungest (s.slc k) line with
      | some e => some (.ok (putTxn (updWb s k e.id fun e => { e with flushTxn := some t.id }) k { t with flushWait := true }))
      | none => none
  | none =>
    match wbYoungest (s.slc k) line with
    | some e => some (.ok (putTxn (updWb s k e.id fun e => { e with flushTxn := some t.id }) k { t with flushWait := true }))
    | none => none

/-- R100: the line a FLUSH_LINE wrote has been acknowledged, or its entry freed (R179, R189). -/
def flushDone (s : State) (k : Fin 16) (t : Txn) : Bool := !((s.slc k).wbuf.any fun e => e.flushTxn == some t.id)

/-! ## Store ways and recalls (R122, R125, R126) -/

/-- A recall transaction opens on a line with SNP_RECALL to every agent of a mask; it pins the cache way of the line, if any
(R115). -/
def openRecall (s : State) (k : Fin 16) (line : Nat) (kind : TxnKind) (way : Option Nat) (mask : Mask) : State × Txn :=
  let t : Txn := { id := (s.slc k).nextTxn, pool := .recall, kind := kind, status := .opened, msg := { laddr := line },
                   part := partOf s line, storeWay := way, cway := (dcFind (s.slc k) line).map fun w => (w.set, w.way), startDir := (dirOf s k line).state, startMsc := mscState s k line,
                   snoopAll := true }
  let s1 := countEv s 0x0109 k
  let s2 := sendSnoops (putTxn s1 k t) k t .snpRecall mask
  (s2, (getTxn s2 k t.id).getD t)

/-- R126 steps 3 and 4: a recall closes: its line ends in I, any cache way of it is made invalid without a write-back,
and the store way goes to the requesting transaction, or is written free when that transaction has ended. -/
def closeRecall (s : State) (k : Fin 16) (t : Txn) (forId : Nat) : PassM := do
  let line := t.msg.laddr
  let set := sidx line
  let way := t.storeWay.getD 0
  let s1 := match dcFind (s.slc k) line with | some w => dcDrop s k w.set w.way | none => s
  let s2 := s1.updSlc k fun sl => { sl with dstore := sl.dstore.filter fun e => !(e.set == set && e.tag == dirTag line) }
  let s3 := finishTxn s2 k { t with status := .closing }
  match getTxn s3 k forId with
  | some w =>
    if w.status == .opened && w.waitWay then .ok (putTxn s3 k { w with waitWay := false, storeWay := some way })
    else storeWrite s3 k set way none
  | none => storeWrite s3 k set way none

/-- R134: the disown mask applied to every entry of a store set before a victim is chosen. -/
def maskSet (s : State) (k : Fin 16) (set : Nat) : PassM :=
  if s.disown == 0 then .ok s
  else ((s.slc k).dstore.filter (·.set == set)).foldlM (fun s e => applyMask s k (entryLine e) (partOf s (entryLine e))) s

/-- R126: a transaction waits for a store way or a recall entry no longer. -/
def endWait (s : State) (k : Fin 16) (set id : Nat) : State :=
  updSat (s.updSlc k fun sl => { sl with wayQ := sl.wayQ.filter (· != id) }) k set fun e => { e with waiters := e.waiters.filter (· != id) }

/-- R125, R126: a transaction stays attached to its store set until a store way or a recall entry is there. -/
def waitForWay (s : State) (k : Fin 16) (t : Txn) : State :=
  let add := fun (l : List Nat) => if l.contains t.id then l else l ++ [t.id]
  putTxn (updSat (s.updSlc k fun sl => { sl with wayQ := add sl.wayQ }) k (sidx t.msg.laddr) fun e => { e with waiters := add e.waiters }) k
    { t with waitWay := true }

/-- R126: a recall of a store victim may open: a recall entry is free, and every holder has a snoop TAG free (R90). -/
def recallFits (s : State) (k : Fin 16) (v : Mask) : Bool := decide (poolOpen (s.slc k) .recall < 32) && snoopsFit s v

/-- R122, R125, R126: a store way for a transaction whose grant needs one: a free way reserved, or a victim recalled, or
the transaction waits attached to its set. The ages of the choice are written with the recall. -/
def reserveWay (s : State) (k : Fin 16) (t : Txn) : PassM := do
  let set := sidx t.msg.laddr
  let s0 ← maskSet s k set
  let s1 ← satEnsure s0 k set
  match freeStoreWay (s1.slc k) set with
  | some w =>
    let s2 := updSat (endWait s1 k set t.id) k set fun e => { e with reserved := e.reserved ++ [(w, t.id)] }
    .ok (putTxn s2 k { t with storeWay := some w, waitWay := false })
  | none =>
    match chooseStoreVictim (s1.slc k) set with
    | none => .ok (classPass (waitForWay s1 k t) k .pinnedVictim)
    | some (e, aged) =>
      let v := storeV (s1.slc k) e
      if !(recallFits s1 k v) then .ok (waitForWay s1 k t)
      else do
        let s2 ← aged.foldlM (fun s x => storeWrite s k set x.way (some x)) s1
        let s3 := updSat (endWait s2 k set t.id) k set fun x => { x with reserved := x.reserved ++ [(e.way, t.id)] }
        let s4 := putTxn s3 k { t with waitWay := true }
        let r := openRecall s4 k (entryLine e) (.recall t.id) (some e.way) v
        if v == 0 then closeRecall r.1 k r.2 t.id else .ok r.1

/-! ## Opening (R91, R94, R95) -/

/-- R92: a RD_SHARED is answered with DATA_E. -/
def grantsE (s : State) (t : Txn) (d : DirEntry) : Bool :=
  attrE t.msg.attr && bitOf (cfgGet s keyFlags t.part) 0 && (d.state == .I || d.v == reqBit t)

/-- Table HOM-4: the snoop message, the agents snooped, and the completion, of a request that opens on an entry. -/
def homeFlow (s : State) (t : Txn) (d : DirEntry) : Op × Mask × Op :=
  let r := reqBit t
  let h := d.v &&& ~~~ r
  let share := if d.state == .X then h else 0
  match flowOp t with
  | .rdShared => (.snpShare, share, if grantsE s t d then .dataE else .dataS)
  | .rdOwn => (.snpInv, h, .dataE)
  | .upgrade => (.snpInv, h, if (d.v &&& r) != 0 then .grantE else .dataE)
  | .rdOnce => (.snpShare, share, .dataI)
  | .atomic => (.snpInv, h, .atomicData)
  | _ => (.snpInv, h, .wrAck)

/-- A transaction closes when everything it waited for is there (R89, R100); in containment it ends with HOME_FAILED
(Table CONS-5). -/
def tryClose (s : State) (k : Fin 16) (t : Txn) : PassM :=
  if t.status != .opened then .ok s
  else if s.cons.contained then
    (match t.kind with
     | .recall _ | .recovery => if t.snoops.all (·.answered) then .ok (delTxn s k t.id) else .ok s
     | _ => .ok (errClose s k t 7))
  else if !(answersIn { t with waitWay := t.waitWay && !t.staleRole }) then .ok s
  else
    match t.kind with
    | .recall w => do
      let s1 ← closeRecall s k t w
      match getTxn s1 k w with
      | some x =>
        if x.status == .opened && answersIn x && !(isFlush x) then closeReq s1 k x else .ok s1
      | none => .ok s1
    | .recovery => .ok (closeRecovery s k t)
    | .req .flushLine | .flush =>
      if t.flushWait then (if flushDone s k t then closeReq s k t else .ok s)
      else match startFlush s k t with
        | none => closeReq s k t
        | some r => do
          let s1 ← r
          match getTxn s1 k t.id with
          | some x => if x.flushWait && flushDone s1 k x then closeReq s1 k x else .ok s1
          | none => .ok s1
    | _ => closeReq s k t

/-- R119: the store entry of a line fills the way pinned for it. -/
def fillWay (s : State) (k : Fin 16) (t : Txn) : State :=
  let line := t.msg.laddr
  match t.cway, dcFind (s.slc k) line, storeFind (s.slc k) line with
  | some (set, way), none, some e =>
    dcPut s k { set := set, way := way, v := e.v, state := e.state, guard := e.guard, tag := e.tag, ssetHi := ssetHi line, sway := some e.way }
  | _, _, _ => s

/-- R91, R95: the request opens: its completion is fixed, its snoops leave, its read starts, its store way is reserved. -/
def openFlow (s : State) (k : Fin 16) (t : Txn) : PassM := do
  let line := t.msg.laddr
  let d := dirOf s k line
  let f := homeFlow s t d
  let held := (d.v &&& reqBit t) != 0
  let t1 := { t with status := .opened, grant := some f.2.2, startDir := d.state, startMsc := mscState s k line,
                     snoopAll := (d.v &&& ~~~ (reqBit t)) == 0 || f.1 == .snpInv }
  let value := needsValue t held
  let looks := value || (match flowOp t with | .wrFull | .flushLine | .wrPart => t.kind != .discard | _ => false)
  if !(snoopsFit s f.2.1) then throw .other
  let s1 ← if t1.read == .none && !t1.needTag && looks then startLookup s k t1 value else .ok (putTxn s k t1)
  let t2 := (getTxn s1 k t.id).getD t1
  let needWay := (f.2.2 == .dataS || f.2.2 == .dataE) && reqBit t != 0 && (dcFind (s1.slc k) line).isNone && t2.storeWay.isNone
  let s2 ← if needWay then reserveWay s1 k t2 else .ok s1
  let t3 := (getTxn s2 k t.id).getD t2
  let s3 := sendSnoops s2 k t3 f.1 f.2.1
  tryClose s3 k ((getTxn s3 k t.id).getD t3)

/-- R94, R119, R427: the opening pass of a request whose directory entry is known; it may stay pending. -/
def openPass (s : State) (k : Fin 16) (t : Txn) : PassM := do
  let line := t.msg.laddr
  let own := t.internal
  let fx := fxOf s line
  if s.cons.contained && !own then .ok (errClose s k t 7)
  else if wbHolds (s.slc k) line then .ok (putTxn s k { t with status := .pending })
  else match (if own then none else mapCheck s t.msg.src t.msg.dest line) with
  | some c => .ok (errClose s k t c)
  | none =>
    let sh := flowOp t == .rdShared || flowOp t == .rdOnce
    if !sh && t.read == .none && t.kind != .discard && (slotFor s k (hankOf line)).isSome then
      .ok (putTxn s k { t with status := .pending, waitSlot := true })
    else do
      let s0 ← applyMask s k line t.part
      let s1 := fillWay s0 k t
      let asks := writesLine t || (isFlush t && (dirOf s1 k line).state == .X)
      if asks && fxState s1 fx == .lost then .ok (errClose s1 k t 6)
      else if asks && fxState s1 fx == .unallocated then
        match t.alloc with
        | some .quota => .ok (errClose s1 k t 5)
        | some .poolEmpty => .ok (errClose s1 k t 6)
        | _ => .ok (askAlloc (putTxn s1 k { t with status := .pending, waitAlloc := true, alloc := none }) k t)
      else match (if asks then t.alloc else none) with
        | some .quota => .ok (errClose s1 k t 5)
        | some .poolEmpty => .ok (errClose s1 k t 6)
        | _ => openFlow s1 k ((getTxn s1 k t.id).getD t)

/-- R427: a pending request opens when nothing holds it back. -/
def pendingReady (t : Txn) : Bool :=
  t.status == .pending && isReqKind t && !t.waitStore && !t.waitAlloc && !t.waitSlot && !t.drainHold

/-! ## Write-backs (R104, R105) -/

/-- R86, R89, R104: the WB_ACK of a WB_DIRTY of cases 1 and 3, and of one taken in containment: its entry, beside what is open on the
line, is kept until the WB_ACK has departed. -/
def ackAside (s : State) (k : Fin 16) (t : Txn) : State :=
  let line := t.msg.laddr
  let t1 := { t with status := .closing, waitStore := false, cmpsOut := 1, grant := some .wbAck, aside := true,
                     startDir := (dirOf s k line).state, startMsc := mscState s k line }
  sendCmp (putTxn s k t1) k t1 .wbAck 0 false 0 true

/-- R104 case 3: a stray WB_DIRTY is acknowledged, counted and recorded. -/
def strayWb (s : State) (k : Fin 16) (t : Txn) : State :=
  let s1 := ackAside s k t
  match t.port with
  | some p => logClass (countEv s1 0x0208 p { agent := some t.msg.src }) 0x20 1 p (some (1, t.msg.laddr * 64)) (partKnown s t.msg.laddr) (some t.msg.src)
  | none => s1

/-- The snoop of a line's open transaction that is outstanding to an agent. -/
def snoopTo (t : Txn) (a : Nat) : Option Snoop := t.snoops.find? fun n => n.agent == a && !n.answered

/-- One snoop of a transaction changed. -/
def updSnoop (t : Txn) (a : Nat) (f : Snoop → Snoop) : Txn :=
  { t with snoops := updFirst (fun (n : Snoop) => n.agent == a && !n.answered) f t.snoops }

/-- R91, R97: data of a snooped agent placed as O and recorded as its snoop's data; DISCARD_RANGE discards it (R182). -/
def takeSnoopData (s : State) (k : Fin 16) (t : Txn) (d : Line) (poison : Bool) : Except SubClass (State × Txn) :=
  if t.kind == .discard then .ok (s, t)
  else (placeData s k t.msg.laddr d poison t.part (attrNt t.msg.attr) true).map fun s1 => (s1, { t with snoopData := some (d, poison), taken := tsNow s })

/-- R104: a WB_DIRTY whose directory entry is known, in its own entry: cases 2 and 3. -/
def wbOwned (s : State) (k : Fin 16) (t : Txn) : PassM := do
  let line := t.msg.laddr
  let s0 ← applyMask s k line t.part
  let d := dirOf s0 k line
  let a := oneHot t.msg.src
  if d.state == .X && d.v == a && a != 0 then
    let s1 ← placeData s0 k line t.msg.data t.msg.poison t.part (attrNt t.msg.attr) true
    let s2 ← dirInPlace s1 k line { d with v := 0, state := .I }
    let t1 := { t with status := .closing, waitStore := false, cmpsOut := 1, grant := some .wbAck, startDir := d.state, startMsc := mscState s k line }
    let s3 := refreshReads (putTxn s2 k t1) k line t.msg.data t.msg.poison
    .ok (finishTxn (sendCmp s3 k t1 .wbAck 0 false 0 true) k t1)
  else .ok (strayWb s0 k t)

/-- R105: an EVICT_CLEAN whose directory entry is known. -/
def evictDo (s : State) (k : Fin 16) (line a part : Nat) : PassM := do
  let s0 ← applyMask s k line part
  let d := dirOf s0 k line
  let snooped := match openOn (s0.slc k) line with | some t => (snoopTo t a).isSome | none => false
  if d.guard || (d.v &&& oneHot a) == 0 || snooped then .ok s0
  else
    let v := d.v &&& ~~~ (oneHot a)
    dirInPlace s0 k line { d with v := v, state := stateOf v (d.state == .X) }

/-- R132: a recovery recall of a candidate line, to every caching agent bound to the device. -/
def openRecovery (s : State) (k : Fin 16) (line : Nat) : PassM :=
  let m := ((List.range 64).filter fun a => bindRole s a == 1 && (s.bind a).status == .active).foldl (fun (m : Mask) a => m ||| oneHot a) 0
  if !(recallFits s k m) then .error .directory
  else
    let set := sidx line
    let s1 := updSat s k set fun e => { e with recalled := e.recalled ++ [line] }
    let r := openRecall s1 k line .recovery none m
    if m == 0 then .ok (closeRecovery r.1 k r.2) else .ok r.1

/-- R104 case 1: a WB_DIRTY that meets an open transaction's snoop to its sender. -/
def wbSnooped (s : State) (k : Fin 16) (t m : Txn) : PassM := do
  let r ← takeSnoopData s k t m.msg.data m.msg.poison
  let n := (snoopTo t m.msg.src).getD {}
  let t1 := updSnoop r.2 m.msg.src fun n => { n with wbTaken := true, answered := n.wbPending }
  let s1 := putTxn r.1 k t1
  let s2 := if n.wbPending then s1.updSlc k fun sl => { sl with ansRsp := sl.ansRsp + 1 } else s1
  tryClose (ackAside s2 k m) k t1

/-- R133: the allocation request of a request that goes back to its chain is withdrawn, with its answer. -/
def dropAlloc (s : State) (k : Fin 16) (id : Nat) : State :=
  (s.updSlc k fun sl => { sl with answers := sl.answers.filter fun a => a.txn != some id }).updPool fun q => { q with
    queue := q.queue.filter fun r => !(r.slice == k && r.txn == some id) }

/-- R119, R120: what was attached to a store set is served from its copy. -/
def serveStore (s : State) (k : Fin 16) (t : Txn) : PassM := do
  let line := t.msg.laddr
  let set := sidx line
  let s1 := updSat s k set fun e => { e with attached := e.attached.filter (· != t.id) }
  let t1 := { t with waitStore := false }
  let r ←
    (if isReqKind t then
      (if isCandidate s1 k line then do
        let t2 := { t1 with status := .waiting, waitAlloc := false, alloc := none, cway := none, read := .none,
                            needTag := false, needExt := false, needMap := false }
        let s2 := putTxn (dropAlloc s1 k t.id) k t2
        if lineBusy (s2.slc k) line then .ok s2 else openRecovery s2 k line
       else if t1.waitAlloc then .ok (putTxn s1 k t1) else openPass (putTxn s1 k t1) k t1)
     else do
      let s2 ← if isCandidate s1 k line && !(lineBusy (s1.slc k) line) then openRecovery s1 k line else .ok s1
      if t.kind == .evict then (evictDo s2 k line t.msg.src t.part).map fun s3 => delTxn s3 k t.id
      else match openOn (s2.slc k) line with
        | some o =>
          if (snoopTo o t.msg.src).isSome then wbSnooped s2 k o t1 else .ok (strayWb s2 k t1)
        | none => wbOwned s2 k t1)
  .ok (satFree r k set)

/-! ## Acceptance (R86, R119, R128, R174) -/

/-- R128, R129: a request that finds every way of its cache set pinned, or requests queued for the set, enters the set-blocked
queue; a full queue replays its pass. -/
def joinSbq (s : State) (k : Fin 16) (t : Txn) : PassM :=
  if 64 ≤ (s.slc k).sbq.length then .error .conflictReplay
  else
    let s1 := putTxn (s.updSlc k fun sl => { sl with sbq := sl.sbq ++ [t.id] }) k { t with status := .setBlocked }
    .ok (countEv s1 0x010D k { part := some t.part })

/-- R119: the directory lookup of a request: a hit opens it or asks the allocator; a miss takes a way and reads the store
set; a set whose ways are all pinned, or that has requests queued, puts it in the set-blocked queue (R128). A request released
from that queue has been counted when it entered. -/
def lookupDir (s : State) (k : Fin 16) (t : Txn) (released : Bool) : PassM :=
  let line := t.msg.laddr
  let set := cidx line
  let unalloc := fxState s (fxOf s line) == .unallocated
  let found := dcFind (s.slc k) line
  let s0 := if released then s else countEv s (if found.isSome then 0x0103 else 0x0104) k { part := some t.part }
  let queued := !released && (s.slc k).sbq.any fun id => id != t.id && (match getTxn s k id with | some x => cidx x.msg.laddr == set | none => false)
  if queued then joinSbq s0 k t
  else match found with
  | some w =>
    let s1 := dcPut s0 k { w with age := 0 }
    let t1 := { t with status := .pending, cway := some (w.set, w.way) }
    if unalloc && t.alloc.isNone && (writesLine t || (isFlush t && (dirOf s1 k line).state == .X)) then
      .ok (askAlloc (putTxn s1 k { t1 with waitAlloc := true }) k t1)
    else openPass (putTxn s1 k t1) k t1
  | none => do
    match ← takeWay s0 k line with
    | none => if released then .error .directory else joinSbq s0 k t
    | some (s2, way) =>
      let t1 := { t with status := .pending, cway := some way, waitStore := true }
      let s3 ← satAttach (putTxn s2 k t1) k (sidx line) t.id
      let s4 ← if flowOp t != .upgrade && needsValue t false then startLookup s3 k t1 true else .ok s3
      let t2 := (getTxn s4 k t.id).getD t1
      let asks := unalloc && writesLine t && t.alloc.isNone
      let t3 := { t2 with waitAlloc := asks }
      let s5 := if asks then askAlloc (putTxn s4 k t3) k t3 else putTxn s4 k t3
      match satFind (s5.slc k) (sidx line) with
      | some e => if e.copyValid then serveStore s5 k t3 else .ok s5
      | none => .ok s5

/-- R119: the acceptance pass of a request, on arrival or from the head of its chain. -/
def acceptPass (s : State) (k : Fin 16) (t : Txn) : PassM :=
  let line := t.msg.laddr
  if s.cons.contained then (if t.internal then .error .other else .ok (errClose s k t 7))
  else match (if t.internal then none else mapCheck s t.msg.src t.msg.dest line) with
  | some c => .ok (errClose s k t c)
  | none =>
    match (if t.internal then none else counterWindow s line) with
    | some x =>
      if t.kind == .req .rdOnce then
        let t1 := { t with status := .closing, cmpsOut := 1, grant := some .dataI }
        .ok (finishTxn (sendCmp (putTxn s k t1) k t1 .dataI (bar2Line s x) false 0 true) k t1)
      else .ok (errClose s k t 2)
    | none =>
      if !t.internal && drainHolds s line then .ok (putTxn s k { t with status := .pending, drainHold := true })
      else if flowOp t != .rdShared && flowOp t != .rdOnce && t.kind != .discard && (slotFor s k (hankOf line)).isSome then
        .ok (putTxn s k { t with status := .pending, waitSlot := true })
      else lookupDir s k t false

/-- R86, R187: a REQ may take a general entry: the pool has one, and its partition is below its cap. -/
def entryFree (s : State) (k : Fin 16) (part : Nat) (internal : Bool) : Bool :=
  let sl := s.slc k
  let used := poolOpen sl .general + poolWait sl .general
  if internal then decide (used < 928) && decide (sl.txns.countP (·.internal) < 32)
  else
    let held := sl.txns.countP fun t => t.pool == .general && !t.internal && t.part == part
    decide (used < 928) && decide (held < cfgGet s keyTxnCap part)

/-- R86, R87, R358: a request taken from its crossbar queue; none is before HOME_READY is released. -/
def acceptReq (s : State) (k : Fin 16) (p : Fin 24) (op : Op) (m : RxMsg) : PassM :=
  let part := partOf s m.laddr
  if !s.clk.homeOwn then .error .other
  else if !(entryFree s k part false) then .error .entries
  else
    let s1 := countEv s 0x0102 k { part := some part, agent := some m.src, port := some p.val, opcode := some (opCode op) }
    let t : Txn := { id := (s.slc k).nextTxn, kind := .req op, msg := m, port := some p, part := part }
    if s.cons.contained then .ok (errClose s1 k t 7)
    else if lineBusy (s.slc k) m.laddr || (s.slc k).txns.any (fun x => x.status == .waiting && x.msg.laddr == m.laddr) then .ok (putTxn s1 k t)
    else acceptPass s1 k t

/-- R86: an internal request enters its slice under agent ID 255. -/
def acceptInternal (s : State) (k : Fin 16) (kind : TxnKind) (m : RxMsg) : PassM :=
  let part := partOf s m.laddr
  if !(entryFree s k part true) then .error .entries
  else
    let t : Txn := { id := (s.slc k).nextTxn, kind := kind, msg := { m with src := 255 }, internal := true, part := part }
    if lineBusy (s.slc k) m.laddr || (s.slc k).txns.any (fun x => x.status == .waiting && x.msg.laddr == m.laddr) then .ok (putTxn s k t)
    else acceptPass s k t

/-- R104, R105, R120: a WB message taken from its crossbar queue. -/
def acceptWb (s : State) (k : Fin 16) (p : Fin 24) (op : Op) (m : RxMsg) : PassM := do
  let sl := s.slc k
  let part := partOf s m.laddr
  let dirty := op == .wbDirty
  let t : Txn := { id := sl.nextTxn, pool := .writeBack, kind := if dirty then .writeBack else .evict, status := .pending,
                   msg := m, port := some p, part := part }
  if 64 ≤ poolOpen sl .writeBack + poolWait sl .writeBack then .error .entries
  else if s.cons.contained then
    if dirty then (placeData s k m.laddr m.data m.poison part (attrNt m.attr) true).map fun s1 => ackAside s1 k t
    else .ok s
  else
    match openOn sl m.laddr with
    | some o =>
      if dirty then
        if (snoopTo o m.src).isSome then wbSnooped s k o t else .ok (strayWb s k t)
      else if (dcFind sl m.laddr).isSome || (snoopTo o m.src).isSome then evictDo s k m.laddr m.src part
      else do
        let s1 ← satAttach (putTxn s k { t with waitStore := true }) k (sidx m.laddr) t.id
        if ((satFind (s1.slc k) (sidx m.laddr)).getD {}).copyValid then serveStore s1 k { t with waitStore := true } else .ok s1
    | none =>
      if (dcFind sl m.laddr).isSome then
        (if dirty then wbOwned (putTxn s k t) k t else evictDo s k m.laddr m.src part)
      else do
        let s1 ← satAttach (putTxn s k { t with waitStore := true }) k (sidx m.laddr) t.id
        if ((satFind (s1.slc k) (sidx m.laddr)).getD {}).copyValid then serveStore s1 k { t with waitStore := true } else .ok s1

/-! ## Work that waited -/

/-- A pass the slice takes of itself; none when it cannot be taken now. -/
def sidePass (s : State) (k : Fin 16) (cls : SubClass) (part : Nat) (f : State → PassM) : Option State :=
  let s0 := beginPass s k
  match f s0 with
  | .ok s1 => some (markPass s1 k cls part)
  | .error _ => none

/-- R128: of each cache set, the oldest set-blocked request, where it finds a way of the set unpinned. -/
def sbqReady (sl : Slice) : List Txn :=
  let firsts := (sl.sbq.filterMap fun id => sl.txns.find? (·.id == id)).foldl
    (fun l t => if l.any fun x => cidx x.msg.laddr == cidx t.msg.laddr then l else l ++ [t]) []
  firsts.filter fun t => (chooseCacheVictim sl (cidx t.msg.laddr)).isSome || (dcFind sl t.msg.laddr).isSome

/-- A set-blocked request takes the way that came free. -/
def releaseSbq (s : State) (k : Fin 16) (t : Txn) : PassM :=
  let s1 := s.updSlc k fun sl => { sl with sbq := sl.sbq.filter (· != t.id) }
  let t1 := { t with status := .pending }
  lookupDir (putTxn s1 k t1) k t1 true

/-- A pass that a slice can go on with of itself: how it is counted, and what it does. -/
structure SidePass where
  /-- Table OBS-4 -/
  cls : SubClass
  /-- R327: partition -/
  part : Nat
  /-- the pass -/
  run : State → PassM

/-- The closing pass of a transaction, when it can be taken: one that leaves the transaction as it is is none. -/
def closeSide (k : Fin 16) (t : Txn) : SidePass :=
  { cls := if t.pool == .recall then .internalPass else .returnPass, part := t.part,
    run := fun s => do
      let s1 ← tryClose s k t
      if getTxn s1 k t.id == some t then .error .other else .ok s1 }

/-- The first transaction that waits for a tag set whose copy is there is decided (R142, R144). -/
def tagSide (k : Fin 16) (ls : Nat) (t : Txn) : SidePass :=
  { cls := .returnPass, part := t.part,
    run := fun s =>
      let s2 := tagDecided (updTst s k ls fun x => { x with waiting := x.waiting.filter (· != t.id) }) k t
      match getTxn s2 k t.id with | some t1 => tryClose s2 k t1 | none => .ok s2 }

/-- What a slice can go on with, in order: transactions with everything in (a flush acknowledged among them), what containment ends, a
request behind an eviction slot that has gone, one held by a drain that has ended, a pending request whose line is free, a store
way, set-blocked requests, copies of store sets and of tag sets that are there. -/
def sidePasses (s : State) (k : Fin 16) : List SidePass :=
  let sl := s.slc k
  let all := fun (p : Txn → Bool) (f : Txn → SidePass) => (sl.txns.filter p).map f
  let internal := fun (t : Txn) (f : State → PassM) => ({ cls := .internalPass, part := t.part, run := f } : SidePass)
  all (fun t => t.status == .opened && (s.cons.contained || (answersIn t && (!t.flushWait || flushDone s k t)))) (closeSide k) ++
  (if s.cons.contained then
    all (fun t => isReqKind t && !t.internal && (t.status == .waiting || t.status == .pending || t.status == .setBlocked))
      (fun t => internal t fun s => .ok (errClose s k t 7)) else []) ++
  all (fun t => t.status == .pending && t.waitSlot && (slotFor s k (hankOf t.msg.laddr)).isNone) (fun t => internal t fun s =>
    let t1 := { t with waitSlot := false }
    if t.cway.isSome then openPass (putTxn s k t1) k t1 else lookupDir (putTxn s k t1) k t1 false) ++
  all (fun t => t.status == .pending && t.drainHold && !(drainHolds s t.msg.laddr)) (fun t => internal t fun s =>
    acceptPass (putTxn s k { t with drainHold := false }) k { t with drainHold := false }) ++
  all (fun t => pendingReady t && !(wbHolds sl t.msg.laddr) && t.cway.isSome) (fun t => internal t fun s => openPass s k t) ++
  (sl.wayQ.filterMap (getTxn s k)).filterMap (fun t =>
    if (freeStoreWay sl (sidx t.msg.laddr)).isSome ||
       (match chooseStoreVictim sl (sidx t.msg.laddr) with | some (e, _) => recallFits s k (storeV sl e) | none => false) then
      some (internal t fun s => reserveWay s k t) else none) ++
  (sbqReady sl).map (fun t => { cls := .reqPass, part := t.part, run := fun s => releaseSbq s k t }) ++
  (sl.sat.filter (·.copyValid)).flatMap (fun (e : StoreSet) => (e.attached.filterMap (getTxn s k)).map fun t =>
    ({ cls := .returnPass, part := t.part, run := fun s => serveStore s k t } : SidePass)) ++
  (sl.tst.filter (·.copyValid)).flatMap (fun (e : TagSet) => (e.waiting.filterMap (getTxn s k)).map (tagSide k e.ls))

/-- The first of them that can be taken. -/
def nextWork (s : State) (k : Fin 16) : Option State :=
  (sidePasses s k).findSome? fun w => sidePass s k w.cls w.part w.run

/-- A slice goes on with everything it can. -/
def settleFuel (k : Fin 16) : Nat → State → State
  | 0, s => s
  | n + 1, s => match nextWork s k with | some s1 => settleFuel k n s1 | none => s

/-- R123, R142, R326: a pass that the slice would take and that is replayed wastes a cycle. -/
def replayWork (s : State) (k : Fin 16) : State :=
  match (sidePasses s k).findSome? fun w =>
      match w.run (beginPass s k) with | .error c => if slotClass c = 1 then some (c, w.part) else none | .ok _ => none with
  | some (c, part) => markPass (beginPass s k) k c part
  | none => s

/-- R156: the cache enters DISABLED when O_LINES reaches zero in DRAINING: tag caches and frames' slots are ended, and the
sweep of R157 starts. -/
def settleCache (s : State) : State :=
  if s.hbm.cache == .draining && oLines s == 0 && (List.finRange 16).all (fun k => !(s.slc k).drain.active) then
    let s1 := s.updHbm fun h => { h with cache := .disabled }
    (List.finRange 16).foldl (fun s k => s.updSlc k fun sl => { sl with tagc := [], sweepOff := some 0 }) s1
  else s

/-- A slice goes on with everything it can; the cache's own transition, and the work of commands that this ends, follow. -/
def settle (s : State) (k : Fin 16) : State :=
  checkWorks (settleCache (replayWork (settleFuel k ((s.slc k).txns.length * 3 + 4) s) k))

/-- Every slice goes on with everything it can. -/
def settleAll (s : State) : State := (List.finRange 16).foldl settle s

/-- R265, R266: a step that enters containment: in every slice, what waits and what is open ends. -/
def settleFault (old new : State) : State := if new.cons.contained && !old.cons.contained then settleAll new else new

end Sys2Proof.Machine
end

