-- ==== Sys2Proof/Machine/Epoch.lean ====
section
/-! DEFINITION. Epochs (R218 to R226), snoop timeouts (R108, R109), disown sweeps (R134), the sump (R224), and a link that
goes down (R46, R189). -/

namespace Sys2Proof.Machine
open Sys2Proof

/-! ## The sump (R224) -/

/-- The credits of a message taken from a crossbar queue are freed. -/
def freeMsg (s : State) (p : Fin 24) (op : Op) : State := freeRx s p (opVc op) (opSlots op)

/-- Table DOM-7: a REQ or WB_DIRTY in the sump is answered by the port, under the current epochs, when its link is up; the
credits it holds return when the answer is placed. In containment HOME_FAILED ranks before STALE_ROLE (R73). -/
def sumpAnswer (s : State) (p : Fin 24) (op : Op) (m : RxMsg) : State :=
  let ack := op == .wbDirty
  let o : OutMsg := { op := if ack then .wbAck else .cmpErr, dest := m.src, tag := m.tag, laddr := m.laddr,
                      aop := if ack then 0 else if s.cons.contained then 7 else 1,
                      epochs := epochsFor s p m.src, reqOp := opCode op, arrived := m.arrived, sumped := true,
                      credit := m.epochs.port == (s.port p).epoch }
  pushCmp s p o

/-- R221, Table DOM-7: a message from an agent whose epoch no longer matches is sumped. The slots of one that arrived before
the link last went down are no longer counted (Table CONS-2). -/
def sumpIn (s : State) (p : Fin 24) (op : Op) (m : RxMsg) : State :=
  let s1 := sumpCount s p m.src
  let answers := linkUp s p && opVc op == 0 || linkUp s p && op == .wbDirty
  if answers then sumpAnswer s1 p op m
  else if m.epochs.port == (s.port p).epoch then freeMsg s1 p op else s1

/-- R221: both epochs a message recorded at its port still hold. -/
def inFresh (s : State) (p : Fin 24) (m : RxMsg) : Bool :=
  m.epochs.port == (s.port p).epoch && m.epochs.agent == (s.bind m.src).epoch

/-! ## Epoch values in use (R225) -/

/-- R225: a message recorded with a value of an epoch is inside the device. -/
def epochUsed (s : State) (e : EpochOf) (v : Nat) : Bool :=
  let hit := fun (p : Option (Fin 24)) (a : Nat) (x : Epochs) =>
    match e with | .port q => p == some q && x.port == v | .agent b => a == b.val && x.agent == v
  ((List.finRange 24).any fun p =>
    let x := s.ports[p]
    (x.reqQ ++ x.wbQ ++ x.rspQ).any (fun m => hit (some p) m.src m.epochs) ||
    (x.tx.cmpQ ++ x.tx.snpQ).any (fun m => hit (some p) m.dest m.epochs) ||
    x.mem.outstanding.any fun o => match e with | .port q => p == q && o.portEpoch == v | .agent _ => false) ||
  (List.finRange 16).any fun k => (s.slc k).txns.any fun t =>
    (t.port.isSome && hit t.port t.msg.src t.msg.epochs) || t.snoops.any fun n => !n.answered && hit (bindPort s n.agent) n.agent n.epochs

/-- R222, R225: PORT_EPOCH advances modulo 256, or the advance is held. -/
def advancePort (s0 : State) (p : Fin 24) : State :=
  let s := wordRead s0 3 (256 + p.val)
  let v := ((s.port p).epoch + 1) % 256
  if epochUsed s (.port p) v then s.updPort p fun x => { x with epochHeld := true }
  else s.updPort p fun x => { x with epoch := v, epochHeld := false }

/-- R222, R225: the EPOCH of an agent ID advances modulo 256, or the advance is held. -/
def advanceEpoch (s0 : State) (a : Nat) : State :=
  let s := wordRead s0 3 a
  let v := ((s.bind a).epoch + 1) % 256
  let used := if h : a < 256 then epochUsed s (.agent ⟨a, h⟩) v else false
  if used then s.updBind a fun b => { b with epochHeld := true }
  else s.updBind a fun b => { b with epoch := v, epochHeld := false }

/-! ## Snoop timeouts (R108) -/

/-- R108: a snoop to an agent is answered by timeout: its bit is cleared when the transaction closes, and the line of an X
holder becomes O with its poison set. -/
def timeoutSnoop (s : State) (k : Fin 16) (t : Txn) (a : Nat) : PassM := do
  let d := dirRaw (s.slc k) t.msg.laddr
  let owner := d.state == .X && (d.v &&& oneHot a) != 0
  let r ← if owner && !s.cons.contained then takeSnoopData s k t 0 true else .ok (s, t)
  let t1 := updSnoop r.2 a fun n => { n with answered := true }
  let s1 := countEv (putTxn (r.1.updSlc k fun sl => { sl with ansTo := sl.ansTo + 1 }) k t1) 0x0108 k { agent := some a }
  if s1.cons.contained then .ok (finishTxn s1 k t1) else tryClose s1 k t1

/-- R109 step 1: every snoop outstanding to the agent is answered by timeout. -/
def timeoutAll (s : State) (a : Nat) : State :=
  (List.finRange 16).foldl (fun s k =>
    ((s.slc k).txns.map (·.id)).foldl (fun s id =>
      match getTxn s k id with
      | some t =>
        if (snoopTo t a).isSome then (sidePass s k .internalPass t.part (fun s => timeoutSnoop s k t a)).getD s else s
      | none => s) s) s

/-! ## Agents (R109, R222, R223) -/

/-- R134: an AGENT_DISOWN sweep of a caching ID starts, in every slice from its first store set. -/
def startSweep (s : State) (a : Nat) (after : BindStatus) : State :=
  let s1 := s.updBind a fun b => { b with status := .disowning, after := after }
  (List.finRange 16).foldl (fun s k => s.updSlc k fun sl => { sl with disownPos := some 0 }) { s1 with disown := s1.disown ||| oneHot a }

/-- R223: the transactions of an agent's requests: those that wait close at once with STALE_ROLE, those that are open
run to a closing pass that grants nothing. REQs held at the head of a crossbar queue are sumped. -/
def staleTxns (s : State) (a : Nat) : State :=
  let s1 := (List.finRange 16).foldl (fun s k =>
    ((s.slc k).txns.map (·.id)).foldl (fun s id =>
      match getTxn s k id with
      | some t =>
        if t.port.isSome && t.msg.src == a && t.pool == .general then
          (match t.status with
           | .opened =>
             let t1 := { t with staleRole := true }
             (sidePass (putTxn s k t1) k .returnPass t.part (fun s => tryClose s k t1)).getD (putTxn s k t1)
           | .closing => s
           | _ => staleClose s k t)
        else if t.msg.src == a && t.pool == .writeBack && t.status == .pending then
          (match t.port with
           | some p => sumpIn (delTxn s k id) p (if t.kind == .evict then .evictClean else .wbDirty) t.msg
           | none => s)
        else s
      | none => s) s) s
  (List.finRange 24).foldl (fun s p =>
    let mine := (s.port p).reqQ.filter (·.src == a)
    mine.foldl (fun s m => sumpIn s p m.op m) (s.updPort p fun x => { x with reqQ := x.reqQ.filter (·.src != a) })) s1

/-- R223: STATUS of an ID whose epoch advances: that of a caching ID once its sweep has ended. In containment no sweep is
started (R266), so that the ID binds again as usual (Table CONS-5). -/
def leaveActive (s : State) (a : Nat) (after : BindStatus) : State :=
  if decide (a < 64) && !s.cons.contained then startSweep s a after
  else if decide (a < 64) && (s.bind a).status == .disowning then s.updBind a fun b => { b with after := after }
  else s.updBind a fun b => { b with status := after }

/-- R223: an agent ID's epoch advances, with its consequences: cause none when the agent is declared failed, else the
cause of its ROLE_ADVANCE record. STATUS becomes after, once any sweep has ended. -/
def agentAdvance (s : State) (a : Nat) (cause : Option Nat) (after : BindStatus) : State :=
  let caching := decide (a < 64)
  let port := cfgGet s keyBind a % 32
  let s1 := advanceEpoch s a
  let s2 := leaveActive s1 a after
  let s3 := if caching then timeoutAll s2 a else s2
  let s4 := staleTxns s3 a
  match cause with
  | none => logClass s4 0x22 1 port none none (some a)
  | some c => if caching then logClass s4 0x23 1 port none none (some a) c else s4

/-- R109: a snoop timeout declares its agent failed. -/
def agentFailed (s : State) (a : Nat) : State :=
  if (s.bind a).status == .disowning || s.cons.contained then s
  else
    let up := match bindPort s a with | some p => linkUp s p | none => false
    agentAdvance (s.updBind a fun b => { b with failed := true }) a none (if up then .withdrawn else .idle)

/-! ## A link that goes down (R46, R189) -/

/-- R89, R221: the CMP and SNP messages waiting at a port are sumped; transactions that waited for their departure close. -/
def dropEgress (s : State) (p : Fin 24) : State :=
  let q := (s.port p).tx.cmpQ
  let n := (s.port p).tx.snpQ
  let s1 := s.updPort p fun x => { x with tx := { x.tx with cmpQ := [], snpQ := [] } }
  let s2 := (q ++ n).foldl (fun s m => sumpCount s p m.dest) s1
  q.foldl (fun s m =>
    match m.owner with
    | some (k, id) =>
      (match getTxn s k id with
       | some t => finishTxn s k { t with cmpsOut := t.cmpsOut - 1 }
       | none => s)
    | none => s) s2

/-- R151: a target of a write-buffer entry returns to unsent, still queued at its port. -/
def unsendTarget (s : State) (r : MemReq) : State :=
  match r.why with
  | .wbuf k e i => updWb s k e fun x => { x with targets := x.targets.modify i fun t => { t with sent := false } }
  | _ => s

/-- R189, R221, R224: requests outstanding on a memory port whose link goes down go back to the head of its queue; answers that wait
for their slice are sumped. -/
def returnOutstanding (s : State) (p : Fin 24) : State :=
  let rs := (s.port p).mem.outstanding.map (·.req)
  let s0 := (s.port p).memQ.foldl (fun s _ => countEv (s.updPort p fun x => { x with sumpMsgs := x.sumpMsgs + 1 }) 0x0207 p) s
  let s1 := s0.updPort p fun x => { x with memQ := [], mem := { x.mem with queue := rs ++ x.mem.queue, outstanding := [], away := x.mem.taken, verifying := false } }
  rs.foldl unsendTarget s1

/-- R48, R46: both sides of a port's link return to their initial values. -/
def clearLink (s : State) (p : Fin 24) (next : LinkState) : State :=
  s.updPort p fun x => { x with
    link := { state := next, genCap := BitVec.ofNat 3 (cfgGet s keyGenCap p), codecRestricted := x.link.codecRestricted,
              calPending := x.link.calPending, waitKeys := x.link.waitKeys || x.enc.on },
    rx := { position := x.rx.position },
    tx := { flitsReplayed := x.tx.flitsReplayed, cmpQ := x.tx.cmpQ, snpQ := x.tx.snpQ },
    enc := { algInForce := x.enc.algInForce },
    cxl := { x.cxl with up := false, rate := 0, flit := 0, laneMask := 0, bound := none, tagMap := [], wbOut := [], biSnp := [], heldBi := [], conflicts := [], layout := none,
                        m2sReq := {}, m2sRwd := {}, m2sBiRsp := {}, s2mNdr := {}, s2mDrs := {}, s2mBiSnp := {}, ideKeys := [] } }

/-- R222, Table DOM-6: the epoch of a port advances, with that of every ID active on it. -/
def portAdvance (s : State) (p : Fin 24) : State :=
  let ids := activeIds s p
  ids.foldl (fun s a => agentAdvance s a (some 0) .idle) (advancePort s p)

/-- R46: the link of a port goes down: the replay buffer, credits and sequence numbers return to their initial values,
epochs advance, a memory port's requests are held, and the port enters DETECT (or DISABLED). IDs withdrawn from the
link-up become idle. -/
def linkDown (s : State) (p : Fin 24) (next : LinkState) : State :=
  let back := fun (s : State) => (List.range 256).foldl (fun s a =>
    if (s.bind a).status == .withdrawn && bindPort s a == some p then s.updBind a fun b => { b with status := .idle }
    else if (s.bind a).status == .disowning && bindPort s a == some p then s.updBind a fun b => { b with after := .idle } else s) s
  let s1 := clearLink (wordWritten s 0 p) p next
  let s2 := portAdvance s1 p
  let s3 := dropEgress s2 p
  let s4 := if isMem s p then returnOutstanding s3 p else s3
  settleAll (back s4)

/-- R46, R78: a protocol error takes the link of a port down. -/
def protocolError (s : State) (p : Fin 24) : State := linkDown s p .detect

/-- R46, R56, R203: a MAC check fails: the link goes down with a MAC_FAIL record. -/
def macFails (s : State) (p : Fin 24) : State := linkDown (logClass s 0x42 1 p) p .detect

/-- R260: a partner's credit failure of a channel takes the link down, with a PORT_FAULT record. -/
def portFault (s : State) (p : Fin 24) (vc : Nat) : State :=
  linkDown (logClass s 0x43 1 p none none none (faultCode 0x01 1 p vc)) p .detect

end Sys2Proof.Machine
end

