-- ==== Sys2Proof/Machine/Arbiter.lean ====
section
/-! DEFINITION. The pass that takes a message of an agent (R103 to R106, R221), what the reads of a pass can meet in the caches
(R131, R141), and the order in which the sources of a slice take its passes (R13, R88). -/

namespace Sys2Proof.Machine
open Sys2Proof

/-! ## Passes -/

/-- R103, R106: a response taken from its crossbar queue: it answers its snoop, or is discarded. -/
def acceptRsp (s : State) (k : Fin 16) (p : Fin 24) (op : Op) (m : RxMsg) : PassM :=
  let pairs := fun (t : Txn) => t.msg.laddr == m.laddr && t.snoops.any fun n => n.agent == m.src && n.tag == m.tag && !n.answered && !n.wbPending
  match (s.slc k).txns.find? pairs with
  | none => .ok (logClass (countEv s 0x0209 p { agent := some m.src }) 0x21 1 p (some (1, m.laddr * 64)) (partKnown s m.laddr) (some m.src))
  | some t =>
    let n := (snoopTo t m.src).getD {}
    if !(rspPermitted n.op op) then .ok (protocolError s p)
    else do
      let done := op != .rspWbPending || n.wbTaken
      let r ← if opHasData op then takeSnoopData s k t m.data m.poison else .ok (s, t)
      let t1 := updSnoop r.2 m.src fun n => { n with
        answered := done, wbPending := n.wbPending || op == .rspWbPending, keepsS := op == .rspS || op == .rspSData }
      let s1 := if done then r.1.updSlc k fun sl => { sl with ansRsp := sl.ansRsp + 1 } else r.1
      if t1.status == .closing then .ok (finishTxn (putTxn s1 k t1) k t1) else tryClose (putTxn s1 k t1) k t1

/-- Table CXL-3: the port of a CXL host sends Cmp when the slice takes its EVICT_CLEAN. -/
def cxlEvictTaken (s : State) (p : Fin 24) (m : RxMsg) : State :=
  if m.op == .evictClean && isPeer s p && !(isOlk s p) then
    pushCmp s p { op := .wrAck, dest := m.src, tag := m.tag, laddr := m.laddr, epochs := epochsFor s p m.src, reqOp := 0x20, arrived := m.arrived }
  else s

/-- R221, R86: the pass that takes a message. -/
def takePass (s : State) (k : Fin 16) (p : Fin 24) (m : RxMsg) : PassM :=
  if !(inFresh s p m) then .ok (sumpIn s p m.op m)
  else
    (match opVc m.op with
     | 0 => acceptReq s k p m.op m
     | 1 => acceptWb s k p m.op m
     | _ => acceptRsp s k p m.op m).map fun (s1 : State) =>
      cxlEvictTaken (if (s1.port p).epoch == m.epochs.port then freeMsg s1 p m.op else s1) p m

/-- The oldest message of a channel queued at a port for a slice. -/
def queueHead (s : State) (p : Fin 24) (k : Fin 16) (v : Nat) : Option RxMsg :=
  (vcQueue (s.port p) v).find? fun m => m.slice == k

/-- R13, R88: the round-robin pointer of a slice's channel moves to the port after the one accepted. -/
def moveRobin (s : State) (k : Fin 16) (v : Nat) (p : Fin 24) : State :=
  let next := (p.val + 1) % 24
  let sl := s.slices[k]
  match v with
  | 0 => { s with slices := s.slices.set k { sl with rrReq := next } }
  | 1 => { s with slices := s.slices.set k { sl with rrWb := next } }
  | _ => { s with slices := s.slices.set k { sl with rrRsp := next } }

/-! ## Errors that a pass meets (R131, R141) -/

/-- R141, R171: the entry of the hank or of the fabric extent of a line is being read again from its table. -/
def refetching (s : State) (k : Fin 16) (line : Nat) : Bool :=
  (s.slc k).reads.any fun r => match r.why with
    | .tagEntry ls tway => let x := frameGet s (frameOf s.fuses.is144 k ls tway); x.state == .present && x.hank == hankOf line
    | .mapEntry fx => fx == fxOf s line
    | _ => false

/-- R131, R141, R171: a pass whose reads meet an error that ends it: the state word refetched, its entry recovered, the hank-tag or
page-map way invalidated and its entry read again, and the pass replayed; or a metadata-loss fault. None when the pass goes on; a pass for a
hank whose entry is being read again waits for it. DIRTY is taken from the flag array. -/
def wayError (s : State) (k : Fin 16) (line : Nat) (found : WayErr) : Option PassM :=
  let sl := s.slc k
  let dirWay := fun (n : Fin 16) => sl.dcache.find? fun w => w.set == cidx line && w.way == n.val
  if refetching s k line then some (.error .other)
  else match found with
  | .none | .corrected => none
  | .stateWord n =>
    (dirWay n).map fun w =>
      if vote3 w.dirtyT then (loseWay s k w).map fun s1 => classPass s1 k .checkRetry
      else .ok (classPass (hbmAccess s (storeAddr k (w.ssetHi * 4096 + w.set) (w.sway.getD 0)) 0 false) k .checkRetry)
  | .identity n => (dirWay n).map fun _ => .ok (contain s (faultCode 0x21 0 k 0))
  | .tagParity n =>
    (sl.tagc.find? fun w => w.set == localSet s.fuses.is144 (hankOf line) % 2048 && w.way == n.val).map fun w =>
      let s1 := s.updSlc k fun sl => { sl with tagc := sl.tagc.filter fun x => !(x.set == w.set && x.way == w.way) }
      .ok (classPass (hbmReadMeta s1 k (tagLine (frameOf s.fuses.is144 k w.ls w.tway)) (.tagEntry w.ls w.tway)).1 k .checkRetry)
  | .mapParity n =>
    (sl.pmCache.find? fun w => w.fx % 512 == fxOf s line % 512 && w.way == n.val).map fun w =>
      let s1 := s.updSlc k fun sl => { sl with pmCache := sl.pmCache.filter (·.fx != w.fx) }
      .ok (classPass (hbmReadMeta s1 k (0x240000000 + w.fx * 8) (.mapEntry w.fx)).1 k .checkRetry)

/-- A pass for a line whose reads of the caches meet what is given. -/
def withFound (k : Fin 16) (line : Nat) (found : WayErr) (f : State → PassM) (s : State) : PassM :=
  match wayError s k line found with | some r => r | none => f s

/-! ## Sources of a slice's passes (R88) -/

/-- A source of Table HOM-3 that waits at a slice. -/
inductive Source where
  /-- ranks 2, 3 and 5: the oldest message of a channel at a port -/
  | msg (v : Nat) (p : Fin 24)
  /-- rank 4: the head of a line's chain -/
  | chain (line : Nat)
  /-- rank 6: a snoop-timeout expiry -/
  | expiry (line agent : Nat)
  deriving DecidableEq, Repr

/-- Table HOM-3: the rank of a source. -/
def sourceRank : Source → Nat
  | .msg 3 _ => 2 | .msg 1 _ => 3 | .chain _ => 4 | .msg _ _ => 5 | .expiry _ _ => 6

/-- R13: the 24 ports from the one a round-robin pointer names. -/
def portsFrom (ptr : Nat) : List (Fin 24) := (List.finRange 24).drop ptr ++ (List.finRange 24).take ptr

/-- The transaction whose snoop to an agent for a line is outstanding. -/
def snooping (sl : Slice) (line a : Nat) : Option Txn := sl.txns.find? fun t => t.msg.laddr == line && (snoopTo t a).isSome

/-- The sources of a rank that wait at a slice, in the order in which they are considered. -/
def sourcesAt (s : State) (k : Fin 16) (rank : Nat) : List Source :=
  let sl := s.slc k
  let queued := fun (v ptr : Nat) => ((portsFrom ptr).filter fun p => (queueHead s p k v).isSome).map fun p => Source.msg v p
  match rank with
  | 2 => queued 3 sl.rrRsp
  | 3 => queued 1 sl.rrWb
  | 4 => (chainHeads sl).map fun t => .chain t.msg.laddr
  | 5 => queued 0 sl.rrReq
  | 6 => (sl.expired.filter fun x => (snooping sl x.1 x.2).isSome).map fun x => .expiry x.1 x.2
  | _ => []

/-- R88: the ranks in the order in which they are taken: those that have waited 64 cycles first, each part in rank order. -/
def rankOrder (sl : Slice) : List Nat :=
  let aged := fun r => decide (64 ≤ sl.waits.getD (r - 1) 0)
  ((List.range 7).filter aged) ++ ((List.range 7).filter fun r => !(aged r)) ++ [7]

/-- R88: the sources that come before a source of a rank. Rank 7 stands for the passes taken only when no source is ready. -/
def aheadOf (s : State) (k : Fin 16) (rank : Nat) (own : Option Source) : List Source :=
  (((rankOrder (s.slc k)).takeWhile (· != rank)).flatMap (sourcesAt s k)) ++ (sourcesAt s k rank).takeWhile fun x => some x != own

/-- The request at the head of a line's chain, once nothing holds the line (R87). -/
def chainHead (sl : Slice) (line : Nat) : Option Txn :=
  if lineBusy sl line then none else sl.txns.find? fun t => t.msg.laddr == line && t.status == .waiting

/-- The pass that takes the oldest message of a channel at a port. -/
def headPass (k : Fin 16) (p : Fin 24) (v : Nat) (m : RxMsg) (s : State) : PassM :=
  takePass (moveRobin (s.updPort p fun x => setQueue x v (removeFirst m (vcQueue x v))) k v p) k p m

/-- R109, R200: what a snoop timeout leads to beyond its pass: the agent declared failed, in its turn, and the event of a CXL host. -/
def expiryEnd (s : State) (line a : Nat) : State :=
  let s1 := settleAll (agentFailed s a)
  match bindPort s a with
  | some p => if personality s p == .peerCxl3 then cxlFailure s1 p 2 line else s1
  | none => s1

/-- R108: the pass that answers a snoop by timeout. -/
def expiryPass (k : Fin 16) (line a : Nat) (s : State) : PassM :=
  let s0 := s.updSlc k fun sl => { sl with expired := sl.expired.filter (· != (line, a)) }
  match snooping (s.slc k) line a with
  | none => .ok s0
  | some t => timeoutSnoop s0 k t a

/-- A pass taken, when it can be. -/
def tryPass (s : State) (k : Fin 16) (cls : SubClass) (part rank : Nat) (opcode : Option Nat) (f : State → PassM) : Option State :=
  match f (beginPass s k) with
  | .ok s1 => some (markRank (markPass s1 k cls part opcode) k rank)
  | .error _ => none

/-- The pass of a waiting source, when it can be taken now; what it lets the slice go on with follows. -/
def sourceTake (s : State) (k : Fin 16) (x : Source) : Option State :=
  let after := fun (s1 : State) => settleFault s (settle s1 k)
  match x with
  | .msg v p => (queueHead s p k v).bind fun m =>
      (tryPass s k (if v == 0 then .reqPass else .wbRspPass) (partOf s m.laddr) (sourceRank x) (some (opCode m.op))
        (withFound k m.laddr .none (headPass k p v m))).map after
  | .chain line => (chainHead (s.slc k) line).bind fun t =>
      (tryPass s k .reqPass t.part 4 (some (opCode (flowOp t))) (withFound k line .none fun s => acceptPass s k t)).map after
  | .expiry line a => (tryPass s k .internalPass (partOf s line) 6 none (expiryPass k line a)).map fun s1 => expiryEnd s1 line a

/-- R13, R88: the sources that come before a pass take theirs first. A source whose pass would be held back or replayed now lets the
next one go (DESIGN CHOICE, assumption 8). -/
def serveAhead (k : Fin 16) (rank : Nat) (own : Option Source) : Nat → State → State
  | 0, s => s
  | n + 1, s =>
    match (aheadOf s k rank own).findSome? (sourceTake s k) with
    | some s1 => serveAhead k rank own n s1
    | none => s

/-- The messages, requests and expiries that may come before a pass of a slice. -/
def sourceCount (s : State) (k : Fin 16) : Nat :=
  ((List.finRange 24).map fun p => (s.port p).reqQ.length + (s.port p).wbQ.length + (s.port p).rspQ.length).sum +
  (s.slc k).txns.length + (s.slc k).expired.length

/-- R13, R88: what comes before a pass of a rank of a slice is taken. -/
def inTurn (s : State) (k : Fin 16) (rank : Nat) (own : Option Source := none) : State := serveAhead k rank own (sourceCount s k) s

end Sys2Proof.Machine
end

