-- ==== Sys2Proof/Machine/Agent.lean ====
section
/-! DEFINITION. Messages from agents: their arrival at a port (R12, R47, R61, R67, R221), the pass that takes each from its
crossbar queue, and the commands RD_SHARED to RSP_S_DATA. -/

namespace Sys2Proof.Machine
open Sys2Proof

/-! ## Arrival -/

/-- R66, R61: the message is one its agent may send. -/
def senderOk (s : State) (op : Op) (src : Nat) : Bool := bindRole s src != 2 || opNonCaching op

/-- R47, R59, R61, R66, R67, R221, R260: a whole message of an agent arrives at an Olilek peer port: it is queued, or
sumped, or takes the link down. -/
def ingress (s : State) (p : Fin 24) (op : Op) (h : Hdr) (d : Line) (metaw : Mask) : State :=
  let v := opVc op
  let n := opSlots op
  let x := s.port p
  let k := sliceOf h.laddr
  let s1 := countEv s 0x0201 p { opcode := some (opCode op), agent := some h.src } n
  let s2 := traceRecord s1 1 { line := some h.laddr, opcode := opCode op, agent := some h.src, part := partOf s h.laddr }
    (traceMsgBody (hdrNat op h) p k (partOf s h.laddr))
  if !(opFromAgent op) then protocolError s2 p
  else if vcGet x.rx.pools v < rxHeld x.rx v + n then portFault s2 p v
  else
    let s3 := s2.updPort p fun x => { x with rx := { x.rx with rcvd := vcAdd x.rx.rcvd v n, shRcvd := vcAdd x.rx.shRcvd v n } }
    if !(fieldsOk op h metaw) then protocolError s3 p
    else if !(activeOn s3 h.src p) then sumpIn s3 p op (rxMsg s3 p op h d metaw)
    else if !(senderOk s3 op h.src) || (v != 0 && h.dest != ownIndex s3) then protocolError s3 p
    else enqueueMsg s3 p (rxMsg s3 p op h d metaw)

/-! ## Taking a message -/

/-- R12, R16: the oldest message of a channel at a port for a slice is taken in a pass; one that cannot be taken stays. -/
def takeNow (s : State) (p : Fin 24) (k : Fin 16) (op : Op) (found : WayErr) : State :=
  match queueHead s p k (opVc op) with
  | none => s
  | some m =>
    if m.op != op then s
    else settleFault s (settle (runPass s k (if opVc op == 0 then .reqPass else .wbRspPass) (partOf s m.laddr)
      (withFound k m.laddr found (headPass k p (opVc op) m)) (some (opCode op)) (sourceRank (.msg (opVc op) p))) k)

/-- R13, R88: the oldest message of a channel at a port for a slice is taken in its turn. -/
def takeHead (s : State) (p : Fin 24) (k : Fin 16) (op : Op) (found : WayErr := .none) : State :=
  match queueHead s p k (opVc op) with
  | none => s
  | some m => if m.op != op then s else takeNow (inTurn s k (sourceRank (.msg (opVc op) p)) (some (.msg (opVc op) p))) p k op found

/-- A message that has just joined its queue is taken at once when it is the first there for its slice. -/
def takeArrived (s : State) (p : Fin 24) (laddr : Nat) (op : Op) (position : Nat) (found : WayErr := .none) : State :=
  match queueHead s p (sliceOf laddr) (opVc op) with
  | some q => if q.position == position then takeHead s p (sliceOf laddr) op found else s
  | none => s

/-- A message of an agent, arriving or queued. -/
def agentMsg (op : Op) (m : MsgIn) (s : State) : State :=
  match m with
  | .arrive p h d w found =>
    if personality s p == .peerOlk && (s.port p).link.state == .active then
      let s1 := wordsRead s [(0, p.val), (1, 0), (3, h.src)]
      settleFault s (takeArrived (ingress s1 p op h d w) p h.laddr op (s.port p).rx.position found)
    else s
  | .queued p k found => takeHead s p k op found

/-! ## Commands -/

/-- RD_SHARED (R92, R95). -/
def execRdShared (msg : MsgIn) (s : State) : Host.Outcome State Fault Refusal := runCmd (agentMsg .rdShared msg) s
/-- RD_OWN (R95). -/
def execRdOwn (msg : MsgIn) (s : State) : Host.Outcome State Fault Refusal := runCmd (agentMsg .rdOwn msg) s
/-- RD_ONCE (R95, R325). -/
def execRdOnce (msg : MsgIn) (s : State) : Host.Outcome State Fault Refusal := runCmd (agentMsg .rdOnce msg) s
/-- UPGRADE (R95). -/
def execUpgrade (msg : MsgIn) (s : State) : Host.Outcome State Fault Refusal := runCmd (agentMsg .upgrade msg) s
/-- FLUSH_LINE (R100). -/
def execFlushLine (msg : MsgIn) (s : State) : Host.Outcome State Fault Refusal := runCmd (agentMsg .flushLine msg) s
/-- WR_FULL (R95, R97). -/
def execWrFull (msg : MsgIn) (s : State) : Host.Outcome State Fault Refusal := runCmd (agentMsg .wrFull msg) s
/-- WR_PART (R66, R95, R97). -/
def execWrPart (msg : MsgIn) (s : State) : Host.Outcome State Fault Refusal := runCmd (agentMsg .wrPart msg) s
/-- ATOMIC (R71, R72, R98). -/
def execAtomic (msg : MsgIn) (s : State) : Host.Outcome State Fault Refusal := runCmd (agentMsg .atomic msg) s
/-- WB_DIRTY (R104). -/
def execWbDirty (msg : MsgIn) (s : State) : Host.Outcome State Fault Refusal := runCmd (agentMsg .wbDirty msg) s
/-- EVICT_CLEAN (R105). -/
def execEvictClean (msg : MsgIn) (s : State) : Host.Outcome State Fault Refusal := runCmd (agentMsg .evictClean msg) s
/-- RSP_I (R103). -/
def execRspI (msg : MsgIn) (s : State) : Host.Outcome State Fault Refusal := runCmd (agentMsg .rspI msg) s
/-- RSP_S (R103). -/
def execRspS (msg : MsgIn) (s : State) : Host.Outcome State Fault Refusal := runCmd (agentMsg .rspS msg) s
/-- RSP_WB_PENDING (R103). -/
def execRspWbPending (msg : MsgIn) (s : State) : Host.Outcome State Fault Refusal := runCmd (agentMsg .rspWbPending msg) s
/-- RSP_I_DATA (R103, R178). -/
def execRspIData (msg : MsgIn) (s : State) : Host.Outcome State Fault Refusal := runCmd (agentMsg .rspIData msg) s
/-- RSP_S_DATA (R103, R178). -/
def execRspSData (msg : MsgIn) (s : State) : Host.Outcome State Fault Refusal := runCmd (agentMsg .rspSData msg) s

end Sys2Proof.Machine
end

