-- ==== Sys2Proof/Machine/HbmMap.lean ====
section
/-! DEFINITION. What the lines of the HBM regions of R17 hold: the directory store (Table DIR-3), the hank-tag table (Table MSC-3), the
page map (Table POOL-1), the error log (R309), and everywhere else what was written. -/

namespace Sys2Proof.Machine
open Sys2Proof

/-- R82: the encoding of a directory state, Table DIR-3. -/
def dirNumber : DirState → Nat | .I => 0 | .S => 1 | .X => 2

/-- Table DIR-3: the 128 bits of a directory-store entry. -/
def storeWord (e : StoreEntry) : Nat :=
  e.v.toNat + e.tag * 2 ^ 64 + dirNumber e.state * 2 ^ 89 + b2n e.guard * 2 ^ 91 + e.age * 2 ^ 92

/-- R114: the four ways of one HBM line of a store set; a free way is zero. -/
def storeWords (sl : Slice) (set q : Nat) : Line :=
  lineOf 16 ((List.range 4).map fun i => match sl.dstore.find? fun e => e.set == set && e.way == 4 * q + i with | some e => storeWord e | none => 0)

/-- R139: the HBM line of the hank-tag table that holds frames f and f + 1. -/
def tagWords (s : State) (f : Nat) : Line := lineOf 32 [tagWord (frameGet s f), tagWord (frameGet s (f + 1))]

/-- Table PROT-8: the 64 bytes of an error record; one whose line is uncorrectable shows its SEQ alone (R309). -/
def logBytes (r : LogRec) : List Byte :=
  if r.lost then leBytes 8 0 ++ leBytes 8 r.seq ++ List.replicate 48 0
  else
    let flags := b2n r.relative + 2 * b2n r.addr.isSome + 4 * b2n r.part.isSome + 8 * b2n r.agent.isSome + 16 * b2n r.notified + 32 * b2n r.coalesced
    leBytes 8 r.time ++ leBytes 8 r.seq ++ leBytes 1 r.cls ++ leBytes 1 flags ++ leBytes 1 r.srcKind ++ leBytes 1 r.src ++ leBytes 4 r.count ++
    leBytes 8 (r.addr.getD 0) ++ leBytes 1 r.addrKind ++ leBytes 1 (r.part.getD 0) ++ leBytes 1 (r.agent.getD 0) ++ leBytes 1 r.severity ++
    leBytes 16 r.detail ++ leBytes 8 r.domTime ++ leBytes 4 0

/-- R405: the record that slot i of the error log holds, when its HBM line reads. -/
def slotRecord (s : State) (i : Nat) : Option LogRec := s.prot.log.find? fun r => r.seq % 65536 == i

/-- R17, R169: what the line that an HBM address names holds. -/
def homeLine (s : State) (ha : Nat) : Line :=
  if ha < 0x200000000 then
    (if h : ha / 2 ^ 29 < 16 then storeWords (s.slc ⟨ha / 2 ^ 29, h⟩) (ha % 2 ^ 29 / 256) (ha % 256 / 64) else 0)
  else if ha < 0x240000000 then tagWords s ((ha - 0x200000000) / 64 * 2)
  else if ha < 0x250000000 then lineOf 8 ((List.range 8).map fun i => fxWord s ((ha - 0x240000000) / 64 * 8 + i))
  else if ha < 0x270000000 then lineOf 64 [match recOf s ((ha - 0x250000000) / 64) with | some r => r.bitmap | none => 0]
  else if ha < 0x274000000 then lineOf 8 ((List.range 8).map fun i => bxWord s ((ha - 0x270000000) / 64 * 8 + i))
  else if ha < 0x276000000 then freeLine s (ha - 0x274000000)
  else if 0x276100000 ≤ ha ∧ ha < 0x280000000 then 0
  else if 0x290000000 ≤ ha ∧ ha < 0x290400000 then
    (match slotRecord s ((ha - 0x290000000) / 64) with | some r => Line.ofBytes (logBytes r) | none => 0)
  else if spareStart s.fuses.is144 * 4096 ≤ ha ∧ ha < spareBase s.fuses.is144 * 4096 ∧ s.hbm.mem.readLine ha = 0 then BitVec.allOnes 512
  else s.hbm.mem.readLine ha

/-- R253: the HBM address of the metadata line that a spare block in use holds. -/
def relocHome (s : State) (ha : Nat) : Option Nat :=
  if ha < spareBase s.fuses.is144 * 4096 then none
  else (s.hbm.reloc.find? (·.2 == ha / 4096)).bind fun e =>
    (s.hbm.banks[e.1 / 8192]?).map fun b => blockOf s.fuses.is144 b.1 b.2.1 b.2.2.1 b.2.2.2 (e.1 % 8192) * 4096 + ha % 4096

/-- R17, R169, R253: what an HBM line holds. -/
def hbmLine (s : State) (ha : Nat) : Line := homeLine s ((relocHome s ha).getD ha)

/-- R229: an HBM line's metadata holds POISON_CODE. -/
def hbmPoison (s : State) (ha : Nat) : Bool := s.hbm.poisoned.contains (ha / 64)

end Sys2Proof.Machine
end

