-- ==== Sys2Proof/Machine/Code.lean ====
section
/-! DEFINITION. Corrected and uncorrectable errors: the HBM code (R227 to R230), the chip-loss code (R231, R233), the
repeat-correct table (R243 to R245), votes (R236) and REWRITE entries. -/

namespace Sys2Proof.Machine
open Sys2Proof

/-! ## The HBM code -/

/-- R229: ADDR_CHECK of a device HBM address. -/
def addrCheck (ha : Nat) : Nat :=
  let ln := ha >>> 6
  (ln % 256) ^^^ (bits ln 15 8) ^^^ (bits ln 23 16) ^^^ (bits ln 31 24)

/-- R227: the codeword of a line at a device HBM address. -/
def hbmCodeword (ha : Nat) (d : Line) (poison : Bool) : List Nat :=
  let w := (d.bytes.map BitVec.toNat) ++ [if poison then 0xF else 0, addrCheck ha]
  w ++ rsParity 6 w

/-- R228: beat b of the burst that carries a codeword: bit k of the result is bit b of symbol k, on pin DQk, or on CB(k - 64). -/
def hbmBeat (w : List Nat) (b : Nat) : BitVec 72 := BitVec.ofNat 72 ((List.range 72).map fun k => b2n (bitOf (w.getD k 0) b) * 2 ^ k).sum

/-- What the decode of a read finds. -/
inductive Decoded where
  /-- the value delivered: data, poison, and the positions corrected as a mask (0 clean) -/
  | good (d : Line) (poison : Bool) (fixed : Nat)
  /-- uncorrectable; MISADDR or not -/
  | ue (misaddr : Bool)
  deriving DecidableEq, Repr

/-- R230: a codeword of 72 symbols decoded for the address read. -/
def hbmDecode (ha : Nat) (w : List Nat) : Decoded :=
  let done := fun (w : List Nat) (fixed : Nat) =>
    if w.getD 65 0 != addrCheck ha then .ue true
    else .good (Line.ofBytes ((w.take 64).map (BitVec.ofNat 8))) (w.getD 64 0 % 16 != 0) fixed
  match rsDecode 6 2 w with
  | .clean => done w 0
  | .corrected errs => done (errs.foldl (fun w e => xorAt w e.1 e.2) w) (errs.foldl (fun m e => m ||| 2 ^ e.1) 0)
  | .bad => .ue false

/-- R227 to R230: a read of an HBM line: what is stored, as the access returned it. A codeword with no symbol changed, of
the line addressed, has a zero syndrome. -/
def hbmReadDecoded (s : State) (ha : Nat) (d : Line) (poison : Bool) (err : HbmErr) : Decoded :=
  match err.other with
  | some l =>
    let ha' := l * 64
    let w := hbmCodeword ha' (hbmLine s ha') (hbmPoison s ha')
    hbmDecode ha (err.flips.foldl (fun w e => xorAt w e.1 e.2.toNat) w)
  | none =>
    if err.flips = [] then .good (if poison then 0 else d) poison 0
    else hbmDecode ha (err.flips.foldl (fun w e => xorAt w e.1 e.2.toNat) (hbmCodeword ha (if poison then 0 else d) poison))

/-! ## The chip-loss code -/

/-- R231: the check symbols of a line for a transparent module. -/
def chipParity (d : Line) (poison : Bool) : List Nat :=
  rsParity 16 ((if poison then 1 else 0) :: (if poison then List.replicate 64 0 else d.bytes.map BitVec.toNat))

/-- R233: a codeword read from a transparent module decoded over its 81 positions, P taken as 0. -/
def chipDecode (d : Line) (metaw chkHi : Mask) : Decoded :=
  let stored := (d.bytes ++ leBytes 8 metaw.toNat ++ leBytes 8 chkHi.toNat).map BitVec.toNat
  let w := 0 :: stored
  match rsDecode 16 8 w with
  | .clean => .good d false 0
  | .bad => .ue false
  | .corrected errs =>
    let fixed := errs.foldl (fun w e => xorAt w e.1 e.2) w
    let line := Line.ofBytes ((fixed.drop 1).map (BitVec.ofNat 8))
    match errs.find? fun e => e.1 == 0 with
    | none => .good line false (errs.foldl (fun m e => m ||| 2 ^ (e.1 - 1)) 0)
    | some (_, v) => if v == 1 then .good line true 0 else .ue false

/-! ## The repeat-correct table -/

/-- Table PROT-8: DETAIL of a CE, UE or PERSISTENT record: symbols corrected and SYMBOL_MAP. -/
def symbolDetail (fixed : Nat) : Nat := (List.range 80).countP (fun i => bitOf fixed i) + (fixed % 2 ^ 80) * 256

/-- R244: the entry a new one replaces in a full table: the oldest FIRST, among those not REWRITTEN if there is one. -/
def rcVictim (es : List RcEntry) : Option RcEntry :=
  let pool := es.filter fun e => !e.rewritten
  let cand := if pool.isEmpty then es else pool
  let oldest := (cand.map (·.first)).foldl min ((cand.map (·.first)).headD 0)
  cand.find? fun e => e.first == oldest

/-- What a correction leads to. -/
structure CeResult where
  /-- the line reached the threshold and is rewritten -/
  rewrite : Bool := false
  /-- it is a correction of a line already rewritten -/
  persistent : Bool := false

/-- R244: a CE offered to the repeat-correct table. -/
def rcOffer (s : State) (hbm : Bool) (port addr fixed : Nat) : State × CeResult :=
  let mine := fun (e : RcEntry) => e.hbm == hbm && e.addr == addr && (hbm || e.port == port)
  let put := fun (s : State) (es : List RcEntry) => { s with prot := { s.prot with rct := es } }
  match s.prot.rct.find? mine with
  | none =>
    let e : RcEntry := { hbm := hbm, port := port, addr := addr, count := 1, first := nowNs s, map := fixed }
    if s.prot.rct.length < 256 then (put s (s.prot.rct ++ [e]), {})
    else match rcVictim s.prot.rct with
      | some v => (countEv (put s (removeFirst v s.prot.rct ++ [e])) 0x0409 0, {})
      | none => (put s (s.prot.rct ++ [e]), {})
  | some e =>
    let upd := fun (f : RcEntry → RcEntry) => put s (updFirst mine f s.prot.rct)
    if e.rewritten then (upd fun e => { e with count := e.count + 1, map := e.map ||| fixed }, { persistent := true })
    else if nowNs s > e.first + cfgGet s keyRcWindow 0 * 3600000000000 then
      (upd fun e => { e with count := 1, first := nowNs s, map := fixed }, {})
    else
      let hit := decide (cfgGet s keyRcThreshold 0 ≤ e.count + 1) && !s.cons.contained
      (upd fun e => { e with count := e.count + 1, map := e.map ||| fixed, rewritten := hit }, { rewrite := hit })

/-- R230, R243 to R245: a CE of an HBM line: counted, recorded, offered to the table, and the line rewritten at the
threshold, unless a write of it is queued already. The flag says that a PERSISTENT record was made. -/
def hbmCe (s : State) (ha fixed : Nat) : State × Bool :=
  let st := stackOf ha
  let s1 := stalAdd (countEv s 0x0306 st) 0x06 st 1
  let addr := some (2, ha)
  let s2 := logClass s1 0x01 2 st addr none none (symbolDetail fixed)
  let (s3, r) := rcOffer s2 true 0 (placeOf s ha) fixed
  let s4 := if r.persistent then logClass s3 0x03 2 st addr none none (symbolDetail fixed) else s3
  let s5 := if r.rewrite then logClass (if writeQueued s4 ha then s4 else hbmPlaced s4 ha 0 true) 0x04 2 st addr else s4
  (s5, r.persistent)

/-- R230: a UE of an HBM line counted and recorded. -/
def hbmUe (s : State) (ha : Nat) (misaddr : Bool) : State :=
  let st := stackOf ha
  logClass (countEv s 0x0307 st) (if misaddr then 0x05 else 0x02) 2 st (some (2, ha))

/-! ## REWRITE entries (R151) -/

/-- R236, R245, Table PROT-4: a repaired value for one target alone, unless the buffer holds an entry for the line. -/
def putRewrite (s : State) (k : Fin 16) (line : Nat) (p : Fin 24) (maddr : Nat) (d : Line) (poison : Bool) (part : Nat)
    (ofCe : Bool := false) : PassM :=
  if wbAny s k line || portUnreachable s p || s.cons.contained then .ok s
  else if 512 ≤ (s.slc k).wbuf.length then .error .backing
  else
    let e : WbEntry := { id := (s.slc k).nextWb, kind := .rewrite, line := line, targets := { port := p, maddr := maddr } :: spareTargets s line,
                         data := if poison then 0 else d, poison := poison, part := part, ofCe := ofCe }
    let s1 := s.updSlc k fun sl => { sl with wbuf := sl.wbuf ++ [e], nextWb := e.id + 1 }
    .ok (queueReady (countEv s1 0x010C k { part := some part }) k)

/-- R233, R243: a CE of a backing line: recorded, offered to the table, and the line rewritten at the threshold. -/
def backingCe (s : State) (k : Fin 16) (line : Nat) (p : Fin 24) (maddr fixed : Nat) (d : Line) (poison : Bool) (part : Nat) : PassM :=
  let addr := some (3, maddr)
  let s1 := logClass s 0x01 1 p addr (some part) none (symbolDetail fixed)
  let (s2, r) := rcOffer s1 false p maddr fixed
  let s3 := if r.persistent then logClass s2 0x03 1 p addr (some part) none (symbolDetail fixed) else s2
  if r.rewrite then putRewrite (logClass s3 0x04 1 p addr (some part)) k line p maddr d poison part true else .ok s3

/-! ## Backing reads that return (R149, R236) -/

/-- R236: two good copies with equal values. -/
def twoEqual (gs : List CopyGot) : Option CopyGot :=
  gs.find? fun g => gs.any fun h => h.copy != g.copy && h.good && g.good && h.data == g.data && h.poison == g.poison

/-- R236, R238: the value a backing read delivers with what has returned: none yet, or data and poison. -/
def votedValue (b : BackRead) : Option (Line × Bool) :=
  let goods := b.got.filter (·.good)
  let all := decide (b.total ≤ b.got.length)
  if b.total ≤ 1 then b.got.head?.map fun g => if g.good then (g.data, g.poison) else (0, true)
  else match twoEqual goods with
    | some g => some (g.data, g.poison)
    | none =>
      if !all then none
      else match goods with
        | [g] => if b.total = 2 then some (g.data, g.poison) else some (0, true)
        | _ => some (0, true)

/-- R149: a returning fill is installed as C, or discarded and counted. -/
def installFill (s : State) (k : Fin 16) (b : BackRead) (d : Line) (poison : Bool) : State :=
  match b.frame with
  | none => s
  | some f =>
    let x := frameGet s f
    if !b.stale && !s.cons.contained && x.state == .present && x.hank == hankOf b.line && !(x.valid.getLsbD (lineIn b.line)) &&
       s.hbm.cache != .disabled then installC s f b.line d poison
    else countEv s 0x010B k { part := some b.part }

/-- R91, R149, R251: the value of a backing read goes to its demand transaction, its fill, and its COPY entry. -/
def deliverBack (s : State) (k : Fin 16) (b : BackRead) (d : Line) (poison : Bool) : PassM :=
  let s1 := installFill s k b d poison
  let s2 := match b.entry with | some e => fillReserved s1 k e b.line d poison | none => s1
  match b.txn.bind (getTxn s2 k) with
  | some t =>
    if t.read == .backing b.id then
      let t1 := if t.snoopData.isSome then { t with read := .discarded } else gotValue s t d poison
      tryClose (putTxn s2 k t1) k t1
    else .ok s2
  | none => .ok s2

/-- R236, R238: no two good copies agree, and no single good copy of a degraded extent stands for them. -/
def noMajority (b : BackRead) : Bool :=
  let goods := b.got.filter (·.good)
  (twoEqual goods).isNone && !(b.total == 2 && goods.length == 1)

/-- R236, Table PROT-4: once every copy has returned, the copies that are bad or differ are rewritten; all of them, poisoned, when no
two agree. -/
def repairCopies (s : State) (k : Fin 16) (b : BackRead) (v : Line × Bool) : PassM :=
  let wrong := if noMajority b then b.got else b.got.filter fun g => (!g.good || g.data != v.1 || g.poison != v.2)
  let reach := wrong.filter fun g => g.maddr != 2 ^ 46
  let ports := fun (g : CopyGot) => if h : g.port < 24 then some (⟨g.port, h⟩ : Fin 24) else none
  if b.total ≤ 1 then
    (match b.got.head? with
     | some g =>
       (match g.good, ports g with
        | false, some p => if g.maddr == 2 ^ 46 then .ok s else putRewrite s k b.line p g.maddr 0 true b.part
        | _, _ => .ok s)
     | none => .ok s)
  else if wrong = [] then .ok s
  else
    let s1 := logClass s (if noMajority b then 0x07 else 0x06) 0 k (some (1, b.line * 64)) (some b.part)
    if wbAny s1 k b.line then .ok s1
    else if 512 < (s1.slc k).wbuf.length + reach.length then .error .backing
    else
      .ok (reach.foldl (fun s g =>
        match ports g with
        | some p =>
          let e : WbEntry := { id := (s.slc k).nextWb, kind := .rewrite, line := b.line, targets := { port := p, maddr := g.maddr } :: spareTargets s b.line,
                               data := if v.2 then 0 else v.1, poison := v.2, part := b.part }
          let s1 := s.updSlc k fun sl => { sl with wbuf := sl.wbuf ++ [e], nextWb := e.id + 1 }
          queueReady (countEv s1 0x010C k { part := some b.part }) k
        | none => s) s1)

/-- R149, R236: a copy of a backing read has returned (or has been given up, R189). -/
def copyReturned (s : State) (k : Fin 16) (id : Nat) (g : CopyGot) : PassM :=
  match (s.slc k).bReads.find? (·.id == id) with
  | none => .ok s
  | some b =>
    let b1 := { b with got := b.got ++ [g] }
    let keep := fun (s : State) (x : BackRead) =>
      s.updSlc k fun sl => { sl with bReads := if x.total ≤ x.got.length then sl.bReads.filter (·.id != id) else upsert (·.id == id) x sl.bReads }
    match votedValue b1 with
    | none => .ok (keep s b1)
    | some v => do
      let b2 := { b1 with delivered := true }
      let s1 := keep s b2
      let s2 ← if b.delivered then .ok s1 else deliverBack s1 k b1 (if v.2 then 0 else v.1) v.2
      if b2.total ≤ b2.got.length && !s2.cons.contained then repairCopies s2 k b2 v else .ok s2

end Sys2Proof.Machine
end

