-- ==== Sys2Proof/Machine/Returns.lean ====
section
/-! DEFINITION. What a slice takes besides messages of agents: HBM returns (R16, R119, R142, R143, R235), allocator answers
(R174, R178), the head of a wait chain (R87), departures of completions (R89), snoop timeouts (R108), recovery recalls
(R132) and eviction copies (R153). -/

namespace Sys2Proof.Machine
open Sys2Proof

/-! ## Store sets -/

/-- R114, R230: what an HBM read of one line of a store set finds: nothing, or the ways that are lost (all four of a line that cannot
be corrected, or those that read STATE 0b11), with the errors counted and recorded. -/
def storeLine (s : State) (k : Fin 16) (set : Nat) (q : Fin 4) (err : HbmErr) : State × List Nat :=
  let ha := storeAddr k set (4 * q.val)
  let ways := (List.range 4).map fun i => 4 * q.val + i
  match hbmReadDecoded s ha (storeWords (s.slc k) set q.val) false err with
  | .ue m => (hbmUe s ha m, ways)
  | .good d _ fixed =>
    (if fixed = 0 then s else (hbmCe s ha fixed).1, ways.filter fun w => bits d.toNat (128 * (w % 4) + 90) (128 * (w % 4) + 89) == 3)

/-- R119, R132: the copy of a store set is there: errors of its four lines are handled, and lost entries start recovery. -/
def storeThere (s : State) (k : Fin 16) (set : Nat) (errs : List (Fin 4 × HbmErr)) : PassM :=
  let r := errs.foldl (fun (acc : State × List Nat) x => let y := storeLine acc.1 k set x.1 x.2; (y.1, acc.2 ++ y.2)) (s, [])
  let s1 := updSat r.1 k set fun e => { e with copyValid := true, reading := false }
  if r.2 == [] then .ok s1 else loseEntries s1 k set r.2

/-- R119, R132: a store set arrives, and the first transaction attached is served in the same pass. -/
def storeReturn (k : Fin 16) (set : Nat) (errs : List (Fin 4 × HbmErr)) (found : WayErr) (s : State) : State :=
  match satFind (s.slc k) set with
  | none => s
  | some e =>
    if !e.reading || (List.range 4).any (fun i => hbmHeld s (storeAddr k set (4 * i))) then s
    else
      let first := fun (s : State) => e.attached.head?.bind (getTxn s k)
      let pass := fun (s : State) => do
        let s1 ← storeThere s k set errs
        match first s1 with
        | some t => (match withFound k t.msg.laddr found (fun s => serveStore s k t) s1 with | .ok s2 => .ok s2 | .error _ => .ok s1)
        | none => .ok (satFree s1 k set)
      let s0 := inTurn s k 1
      settleFault s (settle (runPass s0 k .returnPass 0 pass none 1) k)

/-- STORE_SET_RETURN (R119, R132). -/
def execStoreSetReturn (slice : Fin 16) (set : Nat) (met : SetMet) (s : State) : Host.Outcome State Fault Refusal :=
  runCmd (storeReturn slice set met.errs met.found) s

/-- R123, R132: a write of a store set completes at the HBM controller, whose merge may have found its line uncorrectable. -/
def storeWritten (k : Fin 16) (set : Nat) (lost : Option (Fin 4)) (s : State) : State :=
  match satFind (s.slc k) set with
  | some e =>
    if e.writes = 0 || (List.range 4).any (fun i => hbmHeld s (storeAddr k set (4 * i))) then s
    else
      let s1 := updSat s k set fun e => { e with writes := e.writes - 1 }
      let s2 := match lost with
        | none => s1
        | some q =>
          let s2 := hbmUe s1 (storeAddr k set (4 * q.val)) false
          match loseEntries s2 k set ((List.range 4).map fun i => 4 * q.val + i) with | .ok s3 => s3 | .error _ => s2
      settle (satFree s2 k set) k
  | none => s

/-- R142: a write of a set of the hank-tag table completes at the HBM controller. -/
def tagWritten (k : Fin 16) (ls : Nat) (s : State) : State :=
  match (s.slc k).tst.find? (·.ls == ls) with
  | some e =>
    if e.writes = 0 || (List.range 8).any (fun i => hbmHeld s (tagAddr s.fuses.is144 k ls + 64 * i)) then s
    else updTst s k ls fun e => { e with writes := e.writes - 1 }
  | none => s

/-- R123, R142: a write of a set completes. -/
def writeComplete (k : Fin 16) (set : TableSet) (s : State) : State :=
  match set with | .store n lost => storeWritten k n lost s | .tags ls => tagWritten k ls s

/-- HBM_WRITE_COMPLETE (R123, R132, R142). -/
def execHbmWriteComplete (slice : Fin 16) (set : TableSet) (s : State) : Host.Outcome State Fault Refusal := runCmd (writeComplete slice set) s

/-- R132, R133: the next recovery recall of a set's sweep. -/
def recoveryRecall (k : Fin 16) (set laddr : Nat) (s : State) : State :=
  if sliceOf laddr == k && sidx laddr == set && isCandidate s k laddr && !(lineBusy (s.slc k) laddr) && !s.cons.contained then
    settle (runPass (inTurn s k 7) k .internalPass (partOf s laddr) (fun s =>
      if isCandidate s k laddr && !(lineBusy (s.slc k) laddr) then openRecovery s k laddr else .error .directory)) k
  else s

/-- RECOVERY_RECALL (R132). -/
def execRecoveryRecall (slice : Fin 16) (set : Nat) (laddr : Nat) (s : State) : Host.Outcome State Fault Refusal :=
  runCmd (recoveryRecall slice set laddr) s

/-! ## Wait chains, departures, timeouts -/

/-- R87: the request at the head of a line's chain is taken in its turn, once nothing holds the line. -/
def openWaiting (k : Fin 16) (laddr : Nat) (found : WayErr) (s : State) : State :=
  match (s.slc k).txns.find? fun t => t.msg.laddr == laddr && t.status == .waiting with
  | none => settle s k
  | some _ =>
    if lineBusy (s.slc k) laddr then s
    else
      let s0 := inTurn s k 4 (some (.chain laddr))
      match chainHead (s0.slc k) laddr with
      | none => s0
      | some t => settleFault s (settle (runPass s0 k .reqPass t.part (withFound k laddr found fun s => acceptPass s k t) (some (opCode (flowOp t))) 4) k)

/-- WAITING_REQUEST_OPEN (R87). -/
def execWaitingRequestOpen (slice : Fin 16) (line : LinePass) (s : State) : Host.Outcome State Fault Refusal :=
  runCmd (openWaiting slice line.laddr line.found) s

/-- R89, R221: the oldest CMP message at a port's egress is placed, when credits and room allow; one whose epoch no
longer matches is sumped. Its transaction closes when it was the last. -/
def departCmp (p : Fin 24) (s : State) : State :=
  match (s.port p).tx.cmpQ with
  | [] => s
  | m :: rest =>
    let pop := s.updPort p fun x => { x with tx := { x.tx with cmpQ := rest } }
    let owned := fun (s : State) =>
      match m.owner with
      | some (k, id) =>
        (match getTxn s k id with
         | some t => settle (finishTxn s k { t with cmpsOut := t.cmpsOut - 1 }) k
         | none => s)
      | none => s
    let credit := fun (s : State) => if m.credit then freeRx s p (if m.reqOp = 0x28 then 1 else 0) (if m.reqOp / 8 % 2 = 1 then 5 else 1) else s
    let stale := !(outFresh s p m)
    if stale then owned (credit (sumpCount (if isOlk s p then pop else cxlDone pop p m) p m.dest))
    else if canPlace s p m.op then owned (histCmp (credit (joinFlit (placeMsg pop p m) p)) p m)
    else s

/-- CMP_DEPARTURE (R89). -/
def execCmpDeparture (port : Fin 24) (s : State) : Host.Outcome State Fault Refusal :=
  runCmd (fun s => settleFault s (departCmp port (wordsRead s [(0, port.val), (3, 256 + port.val)]))) s

/-- R108, R109: the 2 ms of an outstanding snoop are over: in its turn it is answered by timeout, and its agent is declared failed. A
response taken before that pass answers the snoop (R108). -/
def snoopTimeout (k : Fin 16) (laddr agent : Nat) (s : State) : State :=
  let x := (laddr, agent)
  match snooping (s.slc k) laddr agent with
  | none => s
  | some _ =>
    let note := s.updSlc k fun sl => { sl with expired := if sl.expired.contains x then sl.expired else sl.expired ++ [x] }
    let s0 := inTurn note k 6 (some (.expiry laddr agent))
    match snooping (s0.slc k) laddr agent with
    | none => s0.updSlc k fun sl => { sl with expired := sl.expired.filter (· != x) }
    | some t =>
      let s1 := runPass s0 k .internalPass t.part (expiryPass k laddr agent) none 6
      if (snooping (s1.slc k) laddr agent).isSome then s1 else expiryEnd s1 laddr agent

/-- SNOOP_TIMEOUT (R108, R109). -/
def execSnoopTimeout (slice : Fin 16) (laddr : Nat) (agent : Nat) (s : State) : Host.Outcome State Fault Refusal :=
  runCmd (snoopTimeout slice laddr agent) s

/-- R225: a held advance of an epoch is made once no message with the new value is inside. -/
def epochAdvance (target : EpochOf) (s : State) : State :=
  match target with
  | .port p => if (s.port p).epochHeld then advancePort s p else s
  | .agent a => if (s.bind a.val).epochHeld then advanceEpoch s a.val else s

/-- EPOCH_ADVANCE (R222, R225). -/
def execEpochAdvance (target : EpochOf) (s : State) : Host.Outcome State Fault Refusal := runCmd (fun s => settleFault s (epochAdvance target s)) s

/-! ## Allocation -/

/-- ALLOCATE (R175): the allocator serves one request. -/
def execAllocate (s : State) : Host.Outcome State Fault Refusal :=
  runCmd (fun s => settleFault s (serveAlloc (wordsRead s (s.pool.queue.map fun r => (2, r.part))))) s

/-- R174, R178: a slice takes the oldest answer of the allocator. -/
def takeAnswer (k : Fin 16) (s : State) : State :=
  match (s.slc k).answers with
  | [] => s
  | a :: rest =>
    let pop := fun (s : State) => s.updSlc k fun sl => { sl with answers := rest }
    let pass := fun (s0 : State) =>
      let s := pop s0
      match a.txn with
      | none => if a.code == .ok then collectOk s k a.laddr (partOf s a.laddr) else .ok s
      | some id =>
        match getTxn s k id with
        | none => .ok s
        | some t =>
          let t1 := { t with waitAlloc := false, alloc := some a.code }
          if t.waitStore then .ok (putTxn s k t1) else openPass (putTxn s k t1) k t1
    settle (runPass s k .returnPass (partOf s a.laddr) pass) k

/-- ALLOCATOR_ANSWER (R174, R178). -/
def execAllocatorAnswer (slice : Fin 16) (s : State) : Host.Outcome State Fault Refusal := runCmd (takeAnswer slice) s

/-! ## Tag sets (R142 to R144) -/

/-- R143: what becomes of a lost hank-tag entry: rewritten from the hank-tag cache; from its eviction slot, with VALID and OWNED from
OMASK, its poison to be found in the lines' metadata; or as its mirror, in frame F xor 2, shows it; else a metadata-loss fault. -/
def rebuildTag (s : State) (k : Fin 16) (ls : Nat) (lost : List (Fin 8)) (w : Nat) : State :=
  let f := frameOf s.fuses.is144 k ls w
  let x := frameGet s f
  let mirrorLost := lost.any fun q => q.val == (w / 2) ^^^ 1
  let sl := s.slc k
  match sl.tagc.find? fun t => t.ls == ls && t.tway == w with
  | some t => writeTag s (keepMirror x t.entry)
  | none => match sl.slots.find? (·.frame == f) with
    | some e => frameSet s { x with state := .evicting, hank := e.outHank, valid := e.omask, owned := e.omask, poison := 0 }
    | none =>
      let m := frameGet s (f ^^^ 2)
      if mirrorLost then contain s (faultCode 0x22 0 k 0)
      else match m.mirState with
        | .free | .retired => frameSet s { num := f, state := m.mirState }
        | .evicting => contain s (faultCode 0x22 0 k 0)
        | .present => if m.mirAnyO then contain s (faultCode 0x22 0 k 0) else frameSet s { num := f, state := .free }

/-- R142, R143, R230: what an HBM read of one line of a tag set finds: the errors counted and recorded, and whether the line is lost. -/
def tagLineRead (s : State) (k : Fin 16) (ls : Nat) (q : Fin 8) (err : HbmErr) : State × Bool :=
  let ha := tagAddr s.fuses.is144 k ls + 64 * q.val
  match hbmReadDecoded s ha (tagWords s (frameOf s.fuses.is144 k ls (2 * q.val))) false err with
  | .ue m => (hbmUe s ha m, true)
  | .good _ _ fixed => (if fixed = 0 then s else (hbmCe s ha fixed).1, false)

/-- R142, R143: the copy of a tag set is there: errors of its eight lines are handled, and lost entries are rebuilt. -/
def tagThere (s : State) (k : Fin 16) (ls : Nat) (errs : List (Fin 8 × HbmErr)) : State :=
  let r := errs.foldl (fun (acc : State × List (Fin 8)) x =>
    let y := tagLineRead acc.1 k ls x.1 x.2; (y.1, if y.2 then acc.2 ++ [x.1] else acc.2)) (s, [])
  let s1 := (r.2.flatMap fun q => [2 * q.val, 2 * q.val + 1]).foldl (fun s w => rebuildTag s k ls r.2 w) r.1
  s1.updSlc k fun sl => { sl with tst := updFirst (fun (x : TagSet) => x.ls == ls) (fun x => { x with copyValid := true, reading := false }) sl.tst }

/-- R142, R144: a tag set arrives: lost entries are rebuilt, and the first transaction that waits for it is decided. -/
def tagReturn (k : Fin 16) (ls : Nat) (errs : List (Fin 8 × HbmErr)) (s : State) : State :=
  match (s.slc k).tst.find? (·.ls == ls) with
  | none => s
  | some e =>
    if !e.reading || (List.range 8).any (fun i => hbmHeld s (tagAddr s.fuses.is144 k ls + 64 * i)) then s
    else
      let pass := fun (s : State) =>
        let s1 := tagThere s k ls errs
        match e.waiting.head?.bind (getTxn s1 k) with
        | some t => (match (tagSide k ls t).run s1 with | .ok s2 => Except.ok s2 | .error _ => .ok s1)
        | none => .ok (updTst s1 k ls id)
      settle (runPass (inTurn s k 1) k .returnPass 0 pass none 1) k

/-- TAG_SET_RETURN (R142, R143, R144). -/
def execTagSetReturn (slice : Fin 16) (ls : Nat) (errs : List (Fin 8 × HbmErr)) (s : State) : Host.Outcome State Fault Refusal :=
  runCmd (fun s => settleFault s (tagReturn slice ls errs s)) s

/-! ## Line data and page-map metadata from HBM -/

/-- Table PROT-4: a UE of a demand read of a frame line: an O line is delivered and rewritten poisoned; a C line is read
again from backing; a line that has left the frame is taken from where it is now. -/
def demandUe (s : State) (k : Fin 16) (t : Txn) (f : Nat) : State :=
  let line := t.msg.laddr
  let j := lineIn line
  let x := frameGet s f
  let here := (x.state == .present || x.state == .evicting) && x.hank == hankOf line && x.valid.getLsbD j
  if here && x.owned.getLsbD j then
    let s1 := hbmWriteLine (frameSet s { x with poison := x.poison ||| oneHot j }) f j 0 true x.part
    putTxn s1 k (gotValue s t 0 true)
  else if here && x.state == .present then
    let s1 := frameSet s { x with valid := x.valid &&& ~~~ (oneHot j), poison := x.poison &&& ~~~ (oneHot j) }
    match wbLive s1 k line with
    | some e => putTxn s1 k (gotValue s t (if e.kind == .zero then 0 else e.data) e.poison)
    | none =>
      match homeSource s1 line with
      | .zero => putTxn (installC s1 f line 0 false) k (gotValue s t 0 false)
      | .poison => putTxn s1 k (gotValue s t 0 true)
      | .back =>
        let (s2, id) := issueBack s1 k line t.part (some f) (some t.id) none
        putTxn s2 k { t with read := .backing id }
  else serveMiss s k t false

/-- R16, R91: a demand read returned to its transaction. -/
def demandReturn (s : State) (k : Fin 16) (r : HbmRead) (id : Nat) (dec : Decoded) : PassM :=
  match getTxn s k id with
  | none => .ok s
  | some t =>
    if t.read != .hbm r.id then .ok s
    else
      let s1 := match dec with
        | .good d p _ => putTxn s k (if t.snoopData.isSome then { t with read := .discarded } else gotValue s t d p)
        | .ue _ => if t.snoopData.isSome then putTxn s k { t with read := .discarded } else demandUe s k t ((r.ha - cacheBase) / 4096)
      match getTxn s1 k id with
      | some t1 => tryClose s1 k t1
      | none => .ok s1

/-- R153, R156: a copied line returns to its reserved entry; one that cannot be corrected passes on poisoned. -/
def copyReturn (s : State) (k : Fin 16) (f line entry : Nat) (walk : Bool) (dec : Decoded) : State :=
  let (d, p) := match dec with | .good d p _ => (d, p) | .ue _ => (0, true)
  let s1 := fillReserved s k entry line d p
  if walk then
    match dec with
    | .ue _ =>
      let x := frameGet s1 f
      if x.state == .present && x.hank == hankOf line && x.valid.getLsbD (lineIn line) then
        hbmWriteLine (frameSet s1 { x with poison := x.poison ||| oneHot (lineIn line) }) f (lineIn line) 0 true x.part
      else s1
    | _ => s1
  else if (s1.slc k).slots.any fun e => e.frame == f && e.outHank == hankOf line && e.copying.getLsbD (lineIn line) then
    slotForget s1 k f (lineIn line)
  else s1

/-- R141, R143: the entry of a hank-tag-cache way that failed its parity check returns and goes back into the cache; one that cannot
be corrected is rebuilt, with the other entry of its line. -/
def tagEntryReturn (s : State) (k : Fin 16) (ls w : Nat) (dec : Decoded) : State :=
  let s1 := match dec with
    | .good _ _ _ => s
    | .ue _ => [w, w ^^^ 1].foldl (fun s w => rebuildTag s k ls [] w) s
  if (frameGet s1 (frameOf s1.fuses.is144 k ls w)).state == .present then tagcInsert s1 k ls w else s1

/-- R171, R172: an entry of the page map returns: the page-map cache takes it, with the triple-table entry of a TRIPLE extent, and the
bitmap read follows. -/
def extentReturn (s : State) (k : Fin 16) (id : Nat) : PassM :=
  match getTxn s k id with
  | none => .ok s
  | some t =>
    if !t.needExt then .ok s
    else
      let fx := fxOf s t.msg.laddr
      let t1 := { t with needExt := false }
      let s0 := match fxEntry s fx with | some e => if e.triple then rootTriple s e.tidx else s | none => s
      let s1 := pmInsert (putTxn s0 k t1) k fx
      if fxState s1 fx == .allocated then .ok (readBitmap s1 k t1)
      else
        let s2 := resolveRead s1 k t1 true
        match getTxn s2 k id with | some x => tryClose s2 k x | none => .ok s2

/-- R171: a written-bitmap returns. -/
def bitmapReturn (s : State) (k : Fin 16) (id : Nat) : PassM :=
  match getTxn s k id with
  | none => .ok s
  | some t =>
    if !t.needMap then .ok s
    else
      let s1 := resolveRead s k { t with needMap := false } true
      match getTxn s1 k id with | some x => tryClose s1 k x | none => .ok s1

/-- R171: a read of the page map is there. -/
def mapReturn (s : State) (k : Fin 16) (why : HbmWhy) : PassM :=
  match why with
  | .extent t => extentReturn s k t
  | .bitmap t => bitmapReturn s k t
  | .mapEntry fx => .ok (pmInsert s k fx)
  | _ => .ok s

/-- R235: a line of the fabric extent table, the written-bitmaps or the backing extent table is to be rebuilt from the extent records. -/
def loseMapLine (s : State) (ha : Nat) : State :=
  let l := ha / 64 * 64
  s.updPool fun q => { q with mapLost := if q.mapLost.contains l then q.mapLost else q.mapLost ++ [l] }

/-- R235: a page-map read returns: one whose line cannot be corrected, or waits to be rebuilt, waits with it. -/
def mapArrives (s : State) (k : Fin 16) (r : HbmRead) (dec : Decoded) : PassM :=
  let hold := fun (s : State) => s.updSlc k fun sl => { sl with mapHeld := sl.mapHeld ++ [r] }
  match dec with
  | .ue _ => .ok (hold (loseMapLine s r.ha))
  | .good _ _ _ => if s.pool.mapLost.contains (r.ha / 64 * 64) then .ok (hold s) else mapReturn s k r.why

/-- R139, R230: what a returned read delivers: the contents of a metadata line as it stands, a line of a frame as the access served
it; a line whose POISON bit and metadata disagree is poisoned. -/
def readDecoded (s : State) (k : Fin 16) (r : HbmRead) (err : HbmErr) : Decoded :=
  match r.why with
  | .demand _ | .evict _ _ _ | .walk _ _ _ =>
    (match hbmReadDecoded s r.ha r.data r.poison err with
     | .good d p fixed => .good d (p || r.mark) fixed
     | .ue m => .ue m)
  | .tagEntry ls w => hbmReadDecoded s r.ha (tagWords s (frameOf s.fuses.is144 k ls (w / 2 * 2))) false err
  | .extent _ | .bitmap _ | .mapEntry _ => hbmReadDecoded s r.ha (hbmLine s r.ha) false err

/-- R16, R230, R235: a read of the slice returns from HBM with what the controller found. -/
def hbmReturn (k : Fin 16) (id : Nat) (err : HbmErr) (found : WayErr) (s : State) : State :=
  let s0 := if (s.slc k).reads.any (·.id == id) then inTurn s k 1 else s
  match (s0.slc k).reads.find? (·.id == id) with
  | none => s0
  | some r =>
    if hbmHeld s0 r.ha then s0
    else
      let dec := readDecoded s0 k r err
      let seen := fun (s : State) =>
        match dec with
        | .good _ p fixed => if fixed = 0 || p then s else (hbmCe s r.ha fixed).1
        | .ue m => hbmUe s r.ha m
      let line := match r.why with
        | .demand t | .extent t | .bitmap t => ((getTxn s0 k t).map (·.msg.laddr)).getD 0
        | .evict _ l _ | .walk _ l _ => l
        | .tagEntry _ _ | .mapEntry _ => 0
      let pass := fun (s0 : State) =>
        let s := (seen s0).updSlc k fun sl => { sl with reads := sl.reads.filter (·.id != id) }
        match r.why with
        | .demand t => demandReturn s k r t dec
        | .evict f line e => .ok (if r.done then s else copyReturn s k f line e false dec)
        | .walk f line e => .ok (if r.done then s else copyReturn s k f line e true dec)
        | .extent _ | .bitmap _ | .mapEntry _ => mapArrives s k r dec
        | .tagEntry ls w => .ok (tagEntryReturn s k ls w dec)
      settleFault s0 (settle (runPass s0 k .returnPass 0 (if found == .none then pass else withFound k line found pass) none 1) k)

/-- HBM_RETURN (R16). -/
def execHbmReturn (slice : Fin 16) (id : Nat) (met : ReadMet) (s : State) : Host.Outcome State Fault Refusal :=
  runCmd (hbmReturn slice id met.err met.found) s

/-- R153 step 3: an eviction slot copies its next line. -/
def evictionCopy (k : Fin 16) (frame : Nat) (s : State) : State :=
  match (s.slc k).slots.find? (·.frame == frame) with
  | none => s
  | some e =>
    match (maskBits e.omask).head? with
    | none => settle (retagIfDone s k frame) k
    | some j =>
      let line := e.outHank * 64 + j
      let part := (frameGet s frame).part
      let pass := fun (s : State) =>
        match reserveWb s k line part .data (targetsOf s line) false with
        | none => .error .backing
        | some (s1, w) =>
          let s2 := (hbmReadLine (if e.flushed then noteEntries s1 [(k.val, w)] else s1) k frame j part (.evict frame line w)).1
          .ok (updSlot s2 k frame fun e => { e with omask := e.omask &&& ~~~ (oneHot j), copying := e.copying ||| oneHot j })
      settle (runPass s k .internalPass part pass) k

/-- EVICTION_COPY_READ (R153). -/
def execEvictionCopyRead (slice : Fin 16) (frame : Nat) (s : State) : Host.Outcome State Fault Refusal :=
  runCmd (evictionCopy slice frame) s

end Sys2Proof.Machine
end

