-- ==== Sys2Proof/Machine/Memory.lean ====
section
/-! DEFINITION. Memory ports: the scheduler (R186), requests sent to a module (R74 to R76, R202, R231), its answers
(R233, R236, R151), the taking and losing of modules (R164, R165, R189), and the commands of the family. -/

namespace Sys2Proof.Machine
open Sys2Proof

/-! ## Sending (R186, R74, R76) -/

/-- The module of a port is transparent (R75: MODE 0); every MODE other than 0 is taken as managed (DESIGN CHOICE, assumption 76:
the spec gives only 0 and 1). -/
def transparent (s : State) (p : Fin 24) : Bool :=
  personality s p == .memOlk && (match (s.port p).mem.desc with | some d => d.mode == 0 | none => false)

/-- R186: the cost of a request. -/
def reqCost (r : MemReq) : Nat := if r.kind = 2 then 1 else 4

/-- R76: the message a request becomes. -/
def reqOp (r : MemReq) : Op := match r.kind with | 0 => .memRd | 2 => .memZero | _ => .memWr

/-- The data and poison a write carries: those its write-buffer entry holds now, or its own. -/
def reqData (s : State) (r : MemReq) : Line × Bool :=
  match r.why with
  | .wbuf k e _ => (match (s.slc k).wbuf.find? (·.id == e) with | some x => (x.data, x.poison) | none => (0, false))
  | _ => (r.data, r.poison)

/-- R12: the slice that takes the answer to a request of a port; none for an extent record or a line of a metadata area. -/
def reqSlice (r : MemReq) : Option (Fin 16) :=
  match r.why with | .read k _ _ => some k | .wbuf k _ _ => some k | .record _ _ => none | .scrub _ k => k

/-- R75, R231: the slots of a memory message. -/
def memSlots (s : State) (p : Fin 24) (o : Op) (tag maddr : Nat) (d : Line) (poison : Bool) : List (List Byte) :=
  if o == .memWr then
    if transparent s p then
      let line : Line := if poison then 0 else d
      let par := (chipParity d poison).map (BitVec.ofNat 8)
      encodeMemHdr o tag maddr 0 (ofLe (par.drop 8)) :: encodeData line (ofLe (par.take 8))
    else encodeMemHdr o tag maddr (if poison then 4 else 0) 0 :: encodeData d (b2n poison)
  else [encodeMemHdr o tag maddr 0 0]

/-- R76, R77: the lowest TAG no request outstanding on a port holds. -/
def freeMemTag (m : PortMem) : Nat := ((List.range 4096).find? fun i => !(m.outstanding.any (·.tag == i))).getD 0

/-- The port issues MEM requests now: its module has been taken, its link carries flits, its MOD_DESC of this link-up has been
answered (R55), and it is not draining. -/
def memIssues (s : State) (p : Fin 24) : Bool :=
  let x := s.port p
  isMem s p && x.mem.taken && !x.mem.unreachable && !x.link.draining && decide (x.mem.outstanding.length < 4096) &&
  (if isOlk s p then x.link.state == .active && x.rx.bindSeen && x.tx.ctlQ.isEmpty else x.cxl.up)

/-- A request that is at the head of its partition's queue may be placed: credits and replay room (R47, R41); to an expander, a credit of
its class (R191). -/
def memPlaceable (s : State) (p : Fin 24) (r : MemReq) : Bool :=
  memIssues s p &&
  (if isOlk s p then
    let n := opSlots (reqOp r)
    (s.port p).rx.initSeen && decide (n ≤ (s.port p).tx.avail.mem) && replayRoom (s.port p) n
   else decide (1 ≤ (if r.kind = 0 then (s.port p).cxl.m2sReq.avail else (s.port p).cxl.m2sRwd.avail)))

/-- Table OBS-1: the event of a request sent. -/
def sentEvent (r : MemReq) : Nat := match r.kind with | 0 => 0x0405 | 2 => 0x0407 | _ => 0x0406

/-- R244: a write of a backing line removes its repeat-correct entry; a rewrite that the table asked for does not. -/
def forgetOnWrite (s : State) (p : Fin 24) (r : MemReq) : State :=
  let repair := match r.why with
    | .wbuf k e _ => (match (s.slc k).wbuf.find? (·.id == e) with | some x => x.ofCe | none => false)
    | _ => false
  if r.kind = 0 || repair then s else rctForget s false p r.maddr

/-- R76, R151: one request sent to the module of a port. -/
def sendMem (s : State) (p : Fin 24) (r : MemReq) : State :=
  let o := reqOp r
  let v := reqData s r
  let tag := freeMemTag (s.port p).mem
  let s1 := forgetOnWrite s p r
  let out : MemOut := { tag := tag, req := r, placedAt := s.obs.cycles, portEpoch := (s.port p).epoch }
  let s2 := s1.updPort p fun x => { x with mem := { x.mem with queue := removeFirst r x.mem.queue, outstanding := x.mem.outstanding ++ [out] } }
  let s3 := match r.why with
    | .wbuf k e i => updWb s2 k e fun x => { x with targets := x.targets.modify i fun t => { t with sent := true } }
    | _ => s2
  let s4 := countEv s3 (sentEvent r) 0 { port := some p.val, part := some r.part }
  let slots := memSlots s4 p o tag r.maddr v.1 v.2
  let k := match reqSlice r with | some k => k.val | none => 0
  let s5 := traceRecord s4 3 { line := (reqSlice r).map fun _ => r.line, opcode := opCode o, part := r.part }
    (traceMsgBody (ofLe (slots.headD [])) p k r.part)
  if isOlk s5 p then
    let n := opSlots o
    let s6 := countEv s5 0x0202 p { opcode := some (opCode o) } n
    sendSlots (s6.updPort p fun x => { x with tx := { x.tx with
      avail := vcSub x.tx.avail 5 n, sent := vcAdd x.tx.sent 5 n, shSent := vcAdd x.tx.shSent 5 n } }) p slots
  else (s5.updPort p fun x => { x with cxl :=
      if o == .memRd then { x.cxl with m2sReq := cxlUse x.cxl.m2sReq } else { x.cxl with m2sRwd := cxlUse x.cxl.m2sRwd } }).emit
    (.cxl p (if o == .memRd then "MemRd" else "MemWr") tag (r.maddr * 64) (if o == .memZero then 0 else v.1) v.2 0)

/-- R186: the deficit of a partition at a port. -/
def deficitOf (m : PortMem) (part : Nat) : Nat := match m.deficit.find? (·.1 == part) with | some x => x.2 | none => 0

/-- R186: the deficit of a partition set; zero is not listed. -/
def setDeficit (s : State) (p : Fin 24) (part d : Nat) : State :=
  s.updPort p fun x => { x with mem := { x.mem with
    deficit := if d = 0 then x.mem.deficit.filter (fun y => y.1 != part) else upsert (fun y => y.1 == part) (part, d) x.mem.deficit } }

/-- R186: a partition is served while its deficit and the port allow; false when the port could not place a request. -/
def servePart (p : Fin 24) (part : Nat) : Nat → State → State × Bool
  | 0, s => (s, true)
  | n + 1, s =>
    match (s.port p).mem.queue.find? (·.part == part) with
    | none => (setDeficit s p part 0, true)
    | some r =>
      let d := deficitOf (s.port p).mem part
      if d < reqCost r then (s, true)
      else if memPlaceable s p r then servePart p part n (setDeficit (sendMem s p r) p part (d - reqCost r))
      else (s, false)

/-- R186: the partitions with requests queued at a port, after the one served last, ascending cyclic. -/
def partOrder (m : PortMem) : List Nat :=
  let ps := ((m.queue.map (·.part)).eraseDups).mergeSort (· ≤ ·)
  ps.filter (fun q => decide (m.lastServed < q)) ++ ps.filter (fun q => decide (q ≤ m.lastServed))

/-- R186: serve_round of a port. -/
def serveRound (p : Fin 24) (s : State) : State :=
  if memIssues s p then
    endFlit ((partOrder (s.port p).mem).foldl (fun (acc : State × Bool) part =>
      if acc.2 then
        let s1 := setDeficit acc.1 p part (deficitOf (acc.1.port p).mem part + 4 * partWeight acc.1 part)
        let r := servePart p part ((s1.port p).mem.queue.length + 1) s1
        (r.1.updPort p fun x => { x with mem := { x.mem with lastServed := part } }, r.2)
      else acc) (s, true)).1 p
  else s

/-- MEMORY_PORT_SCHEDULE (R186): one round of the scheduler of a memory port. -/
def execMemoryPortSchedule (port : Fin 24) (s : State) : Host.Outcome State Fault Refusal :=
  runCmd (fun s => settleFault s (serveRound port (wordRead s 0 port))) s

/-! ## Answers (R76) -/

/-- R330: a memory access counted in its port's histogram. -/
def histMem (s : State) (p : Fin 24) (o : MemOut) : State :=
  histAdd s p (if o.req.kind = 0 then 6 else 7) ((s.obs.cycles - o.placedAt) / 2)

/-- R331: the MEM_IN record of an answer. -/
def traceMemIn (s : State) (p : Fin 24) (op : Op) (m : MemIn) (r : MemReq) : State :=
  let k := match reqSlice r with | some k => k.val | none => 0
  traceRecord s 4 { line := (reqSlice r).map fun _ => r.line, opcode := opCode op, part := r.part }
    (traceMsgBody (memHdrNat op m.tag m.maddr m.mattr.toNat m.chkHi.toNat) p k r.part)

/-- R75, R202, R233: what an answer's line decodes to, and whether the module corrected it. The DRS Poison bit of an expander sets MOD_UE
as well. -/
def memDecode (s : State) (p : Fin 24) (m : MemIn) : Decoded × Bool :=
  if transparent s p then
    let dec := chipDecode m.data m.metaw m.chkHi
    (dec, match dec with | .good _ q fixed => fixed != 0 && !q | .ue _ => false)
  else
    let poison := m.mattr.getLsbD 2 || m.metaw.getLsbD 0
    if m.mattr.getLsbD 4 || (poison && personality s p == .memCxl) then (.ue false, false) else (.good m.data poison 0, m.mattr.getLsbD 5 && !poison)

/-- R233, R236: a line read returns to the slice that asked: its error is recorded, and it counts as a copy. -/
def readReturned (s : State) (p : Fin 24) (r : MemReq) (m : MemIn) (k : Fin 16) (id copy : Nat) : PassM := do
  let (dec, ce) := memDecode s p m
  match dec with
  | .good d q fixed =>
    let s1 ← if ce then backingCe s k r.line p r.maddr (fixed % 2 ^ 80) d q r.part else .ok s
    copyReturned s1 k id { copy := copy, port := p, maddr := r.maddr, data := d, poison := q, good := true }
  | .ue _ =>
    let s1 := logClass s 0x02 1 p (some (3, r.maddr)) (some r.part)
    copyReturned s1 k id { copy := copy, port := p, maddr := r.maddr, data := 0, poison := true, good := false }

/-- R191: the S2M class of an answer of n slots, changed: DRS for MemData, NDR for Cmp. -/
def updS2m (s : State) (p : Fin 24) (n : Nat) (f : CxlCredit → CxlCredit) : State :=
  s.updPort p fun x => { x with cxl := if n = 5 then { x.cxl with s2mDrs := f x.cxl.s2mDrs } else { x.cxl with s2mNdr := f x.cxl.s2mNdr } }

/-- An answer's credited slots accepted (R47, R191). -/
def memRcvd (s : State) (p : Fin 24) (n : Nat) : State :=
  if isOlk s p then s.updPort p fun x => { x with rx := { x.rx with rcvd := vcAdd x.rx.rcvd 5 n, shRcvd := vcAdd x.rx.shRcvd 5 n } }
  else updS2m s p n cxlUse

/-- The receive-buffer slots of an answer freed as its slice takes it (R50, R191). -/
def memFreed (s : State) (p : Fin 24) (n : Nat) : State :=
  if isOlk s p then freeRx s p 5 n else updS2m s p n fun c => giveBack { c with due := c.due + 1 }

/-- R191: the expander holds a credit for an answer of n slots. -/
def s2mHeld (s : State) (p : Fin 24) (n : Nat) : Bool :=
  isOlk s p || decide (1 ≤ (if n = 5 then (s.port p).cxl.s2mDrs.avail else (s.port p).cxl.s2mNdr.avail))

/-- A request outstanding on a port is answered. -/
def dropOutstanding (s : State) (p : Fin 24) (tag : Nat) : State :=
  s.updPort p fun x => { x with mem := { x.mem with outstanding := x.mem.outstanding.filter (·.tag != tag) } }

/-- R151, R188: a target of a write-buffer entry is acknowledged; the entry is freed on the last. -/
def wbAcked (s : State) (k : Fin 16) (id i : Nat) : State :=
  let s1 := updWb s k id fun e => { e with targets := e.targets.modify i fun t => { t with acked := true } }
  match (s1.slc k).wbuf.find? (·.id == id) with
  | some e => if e.targets.all (·.acked) then dropWb s1 k id else s1
  | none => s1

/-! ## Answers to patrol and scrub (R246 to R248) -/

/-- The fabric line and record of a line of a memory port. -/
def lineOfMaddr (s : State) (p : Fin 24) (maddr : Nat) : Option (ExtRecord × Nat) :=
  (recOf s ((s.port p).mem.bxBase + maddr / 32768)).map fun r => (r, fabricOf s (r.fx * 2 ^ 21 + (maddr % 32768) * 64) / 64)

/-- R246: a line of a memory port that is skipped: of an unwritten page, or of a free or retired extent. -/
def skipBacking (s : State) (p : Fin 24) (maddr : Nat) : Bool :=
  let m := (s.port p).mem
  if maddr / 32768 < m.ek - m.metaExt then
    match recOf s (m.bxBase + maddr / 32768) with
    | some r => r.retired || !(pageWritten s r.fx (maddr % 32768 / 64))
    | none => true
  else decide (m.ek * 32768 ≤ maddr)

/-- What a scrub read finds: corrected, uncorrectable, persistent. -/
structure ScrubFound where
  /-- a CE -/
  ce : Bool := false
  /-- a UE -/
  ue : Bool := false
  /-- a PERSISTENT record was made -/
  persistent : Bool := false
  deriving DecidableEq, Repr

/-- Table PROT-7: a line read and decoded by the scrub. -/
def scrubCount (c : Scrub) (addr : Nat) (f : ScrubFound) : Scrub :=
  { c with read := c.read + 1, corrected := min (c.corrected + b2n f.ce) (2 ^ 32 - 1), uncorrectable := min (c.uncorrectable + b2n f.ue) (2 ^ 32 - 1),
           persistent := min (c.persistent + b2n f.persistent) (2 ^ 32 - 1),
           addrs := if (f.ce || f.ue) && decide (c.addrs.length < 16) then c.addrs ++ [addr] else c.addrs }

/-- The scrub changed. -/
def State.updScrub (s : State) (f : Scrub → Scrub) : State := { s with prot := { s.prot with scrub := f s.prot.scrub } }

/-- R248: the end of the range, and of the answers: the scrub is done, and SCRUB_DONE is recorded and notified. -/
def scrubEnd (s : State) : State :=
  if s.prot.scrub.state == 1 && decide (s.prot.scrub.stop ≤ s.prot.scrub.next) && s.prot.scrub.waiting == 0 then
    let s1 := s.updScrub fun c => { c with state := 2 }
    if s.prot.scrub.hbm then logClass s1 0x0D 7 0 else logClass s1 0x0D 1 s.prot.scrub.port
  else s

/-- R248: a line asked of a memory port for the scrub is counted: read, or skipped. -/
def scrubGot (s : State) (patrol : Bool) (maddr : Nat) (found : Option ScrubFound) : State :=
  if patrol then s
  else scrubEnd (s.updScrub fun c =>
    let c1 := { c with waiting := c.waiting - 1 }
    match found with | some f => scrubCount c1 maddr f | none => { c1 with skipped := c1.skipped + 1 })

/-- R233, R246, R247, Table PROT-4: the answer to a read of patrol or scrub: a CE is offered to the repeat-correct table, and a UE goes
to the unit that owns the line; a UE of a line no longer held there is skipped. -/
def scrubReturned (s : State) (p : Fin 24) (r : MemReq) (m : MemIn) (patrol : Bool) : PassM := do
  let got := fun (s : State) (f : ScrubFound) => scrubGot s patrol r.maddr (some f)
  let addr := some (3, r.maddr)
  match memDecode s p m, lineOfMaddr s p r.maddr with
  | (.good d q fixed, true), x =>
    let again := s.prot.rct.any fun e => !e.hbm && e.port == p.val && e.addr == r.maddr && e.rewritten
    let s1 ← match x with
      | some (e, line) => backingCe s (sliceOf line) line p r.maddr (fixed % 2 ^ 80) d q e.part
      | none => .ok (logClass s 0x01 1 p addr none none (symbolDetail (fixed % 2 ^ 80)))
    .ok (got s1 { ce := true, persistent := again })
  | (.good _ _ _, false), _ => .ok (got s {})
  | (.ue _, _), x =>
    if skipBacking s p r.maddr then .ok (scrubGot s patrol r.maddr none)
    else
      let s1 := logClass s 0x02 1 p addr (x.map fun e => e.1.part)
      match x with
      | some (e, line) =>
        if e.triple then .ok (got (issueBack s1 (sliceOf line) line e.part none none none).1 { ue := true })
        else (putRewrite s1 (sliceOf line) line p r.maddr 0 true e.part).map fun s => got s { ue := true }
      | none => .ok (got s1 { ue := true })

/-- R16, R76, R151: the pass that takes an answer of a module; none while it waits for a write-buffer entry (R152). An answer frees its
receive buffer as it is taken (R50). -/
def takeMem (s : State) (p : Fin 24) (m : MemIn) : Option State :=
  match (s.port p).mem.outstanding.find? (·.tag == m.tag) with
  | none => some s
  | some o =>
    let done := fun (s : State) => memFreed (dropOutstanding s p m.tag) p (if o.req.kind = 0 then 5 else 1)
    match o.req.why with
    | .read k id c => (sidePass s k .returnPass o.req.part fun s => (readReturned s p o.req m k id c).map done).map fun s1 => settle s1 k
    | .wbuf k e i => (sidePass s k .returnPass o.req.part fun s => .ok (wbAcked (done s) k e i)).map fun s1 => settle s1 k
    | .record _ _ => some (done s)
    | .scrub b (some k) => (sidePass s k .returnPass o.req.part fun s => (scrubReturned s p o.req m b).map done).map fun s1 => settle s1 k
    | .scrub b none => (scrubReturned s p o.req m b).toOption.map done

/-- The slice for which an answer waits at a port. -/
def waitsFor (s : State) (p : Fin 24) (m : MemIn) : Option (Fin 16) :=
  ((s.port p).mem.outstanding.find? (·.tag == m.tag)).bind fun o => reqSlice o.req

/-- R13, R152: the answers of a port that waited are taken, oldest first for each slice, as far as they can be. -/
def retryMemQ (p : Fin 24) : List MemIn → List (Fin 16) → State → State
  | [], _, s => s
  | m :: rest, held, s =>
    match waitsFor s p m with
    | none => retryMemQ p rest held s
    | some k =>
      if held.contains k then retryMemQ p rest held s
      else match takeMem s p m with
        | some s1 => retryMemQ p rest held (s1.updPort p fun x => { x with memQ := removeFirst m x.memQ })
        | none => retryMemQ p rest (k :: held) s

/-- Every slice queues what a record's acknowledgement let go (R180), and every port's slices take the answers that waited. -/
def retryRound (s : State) : State :=
  let s1 := (List.finRange 16).foldl queueReady s
  (List.finRange 24).foldl (fun s p => retryMemQ p (s.port p).memQ [] s) s1

/-- As many rounds as answers wait. -/
def retryRounds : Nat → State → State
  | 0, s => s
  | n + 1, s => retryRounds n (retryRound s)

/-- What an answer taken lets go. -/
def afterAck (s : State) : State := retryRounds (((List.finRange 24).map fun p => (s.port p).memQ.length).sum + 1) s

/-- R12, R13, R76, R260: an answer of a module to a request outstanding, for which the home's receive buffer has room, is traced and counted, and taken in a pass of its slice, behind the
answers of the port that wait for that slice. -/
def memAnswer (p : Fin 24) (op : Op) (m : MemIn) (o : MemOut) (s : State) : State :=
  let s1 := countEv s 0x0201 p { opcode := some (opCode op) } (opSlots op)
  let s2 := histMem (traceMemIn (memRcvd s1 p (opSlots op)) p op m o.req) p o
  let x := (s.port p).rx
  let wait := s2.updPort p fun x => { x with memQ := x.memQ ++ [m] }
  if isOlk s p && decide (x.pools.mem < rxHeld x 5 + opSlots op) then portFault s1 p 5
  else if !(s2mHeld s p (opSlots op)) then protocolError s1 p
  else if (s2.port p).memQ.any fun q => (waitsFor s2 p q).isSome && waitsFor s2 p q == reqSlice o.req then wait
  else match takeMem s2 p m with
    | some s3 => if op == .memWrAck then afterAck s3 else s3
    | none => wait

/-- The link of a memory port delivers messages. -/
def memLinkUp (s : State) (p : Fin 24) : Bool := isMem s p && (if isOlk s p then (s.port p).link.state == .active else (s.port p).cxl.up)

/-- R76, R203: MEM_RD_DATA arrives: it must answer an outstanding MEM_RD with its TAG and MADDR. -/
def memRdData (p : Fin 24) (m : MemIn) (s : State) : State :=
  if !(memLinkUp s p) then s
  else if !(isOlk s p) && ideOn (s.port p).cxl && !m.mac then macFails s p
  else
    match (s.port p).mem.outstanding.find? (·.tag == m.tag) with
    | some o =>
      if o.req.kind != 0 || o.req.maddr != m.maddr || (s.port p).memQ.any (·.tag == m.tag) then protocolError s p
      else memAnswer p .memRdData m o s
    | none => protocolError s p

/-- MEM_RD_DATA (R76). -/
def execMemRdData (port : Fin 24) (m : MemIn) (s : State) : Host.Outcome State Fault Refusal := runCmd (memRdData port m) s

/-- R76, R151, R203: MEM_WR_ACK arrives: it must answer an outstanding MEM_WR or MEM_ZERO with its TAG and MADDR. -/
def memWrAck (p : Fin 24) (tag maddr : Nat) (mac : Bool) (s : State) : State :=
  if !(memLinkUp s p) then s
  else if !(isOlk s p) && ideOn (s.port p).cxl && !mac then macFails s p
  else
    match (s.port p).mem.outstanding.find? (·.tag == tag) with
    | some o =>
      if o.req.kind == 0 || o.req.maddr != maddr || (s.port p).memQ.any (·.tag == tag) then protocolError s p
      else memAnswer p .memWrAck { tag := tag, maddr := maddr } o s
    | none => protocolError s p

/-- MEM_WR_ACK (R76, R151). -/
def execMemWrAck (port : Fin 24) (tag : Nat) (ack : MemAck) (s : State) : Host.Outcome State Fault Refusal :=
  runCmd (memWrAck port tag ack.maddr ack.mac) s

/-! ## A module that stays away (R189) -/

/-- R189: the reads held for a port complete as copies that are not good. -/
def giveUpReads (s : State) (p : Fin 24) : State :=
  let rs := (s.port p).mem.queue
  let s1 := s.updPort p fun x => { x with mem := { x.mem with queue := [] } }
  rs.foldl (fun s r =>
    match r.why with
    | .read k id c =>
      let g : CopyGot := { copy := c, port := p, maddr := 2 ^ 46, good := false, poison := true }
      (sidePass s k .returnPass r.part fun s => copyReturned s k id g).getD s
    | .scrub b _ => scrubGot s b r.maddr none
    | _ => s) s1

/-- R189: targets on a port leave their write-buffer entries; entries left without a target are freed and counted. The
number freed is answered. -/
def giveUpWrites (s : State) (p : Fin 24) : State × Nat :=
  (List.finRange 16).foldl (fun (acc : State × Nat) k =>
    ((acc.1.slc k).wbuf.filter fun e => e.targets.any fun t => t.port == p && !t.acked).foldl (fun (acc : State × Nat) e =>
      let s1 := updWb acc.1 k e.id fun e => { e with targets := e.targets.map fun t => if t.port == p then { t with acked := true } else t }
      let rest := e.targets.filter fun t => t.port != p
      if rest.isEmpty then (countEv (dropWb s1 k e.id) 0x040F 0 { part := some e.part }, acc.2 + 1)
      else if rest.all (·.acked) then (dropWb s1 k e.id, acc.2)
      else (s1, acc.2)) acc) (s, 0)

/-- R238: a copy of a TRIPLE extent is lost: the extent runs degraded, which is recorded when no port is eligible for its
rebuild. -/
def loseCopy (s : State) (fx copy : Nat) : State :=
  if s.pool.degraded.contains (fx, copy) then s
  else
    let s1 := s.updPool fun q => { q with degraded := q.degraded ++ [(fx, copy)] }
    match fxEntry s1 fx with
    | some e =>
      if (sparePort s1 e copy).isSome then s1 else logClass s1 0x08 6 0 (some (1, fabricOf s1 (fx * 2 ^ 21))) (some e.part)
    | none => s1

/-- The copies of TRIPLE extents on a port: fabric extent and copy index. -/
def tripleCopiesOn (s : State) (p : Fin 24) : List (Nat × Nat) :=
  (s.pool.fxs.filter (·.triple)).flatMap fun e =>
    ((liveCopies s e).filter fun c => ((bxPort s c.2).map (·.1)) == some p).map fun c => (e.fx, c.1)

/-- MEM_PORT_TIMEOUT (R189): the extents of a port that is away become unreachable. -/
def portTimeout (p : Fin 24) (s : State) : State :=
  let m := (s.port p).mem
  if !m.away || m.unreachable || !m.taken || (s.port p).link.state == .maint then s
  else
    let s1 := s.updPort p fun x => { x with mem := { x.mem with unreachable := true } }
    let s2 := (tripleCopiesOn s1 p).foldl (fun s c => loseCopy s c.1 c.2) s1
    let (s3, n) := giveUpWrites s2 p
    let s4 := giveUpReads s3 p
    settleAll (logClass s4 0x33 1 p none none none n)

/-- MEM_PORT_TIMEOUT (R189). -/
def execMemPortTimeout (port : Fin 24) (s : State) : Host.Outcome State Fault Refusal := runCmd (portTimeout port) s

/-! ## Taking a module into the pool (R164, R165) -/

/-- R165: local extents of a capacity in GiB. -/
def extentsOf (capGiB : Nat) : Nat := capGiB * 512

/-- R165: metadata extents of E_k. -/
def metaOf (ek : Nat) : Nat := (ek + 16383) / 16384

/-- R164, R255: the conditions on a module, with every contributing port's capacity; a port whose codec failed its self-test
refuses transparent modules. -/
def moduleOk (s : State) (p : Fin 24) (d : ModDesc) : Bool :=
  let others := ((List.finRange 24).map fun q =>
    match s.ports[q].mem.desc with | some e => if q != p && s.ports[q].mem.taken then extentsOf e.capGiB else 0 | none => 0).sum
  decide (4 ≤ d.capGiB) && (d.mode != 0 || (d.chips == 10 && !(s.port p).link.codecRestricted)) && decide (others + extentsOf d.capGiB ≤ 2 ^ 23)

/-- R165: ranges of BX held by contributing ports or reserved by ports that are away. -/
def heldRanges (s : State) (p : Fin 24) : List (Nat × Nat) :=
  ((List.finRange 24).filter (· != p)).filterMap fun q =>
    let m := s.ports[q].mem
    if m.taken then some (m.bxBase, m.ek) else none

/-- R165: the lowest run of n BX numbers that no range holds. -/
def firstFit (held : List (Nat × Nat)) (n : Nat) : Option Nat :=
  let fits := fun b => decide (b + n ≤ 2 ^ 23) && held.all fun r => decide (b + n ≤ r.1 ∨ r.1 + r.2 ≤ b)
  let starts := (0 :: held.map fun r => r.1 + r.2).filter fits
  match starts with
  | [] => none
  | b :: bs => some (bs.foldl min b)

/-- Ascending runs of the numbers below n that are not listed (R175). -/
def freeRuns (n : Nat) (used : List Nat) : List (Nat × Nat) :=
  let us := ((used.filter (· < n)).eraseDups).mergeSort (· ≤ ·)
  let r := us.foldl (fun (acc : List (Nat × Nat) × Nat) u => (if acc.2 < u then acc.1 ++ [(acc.2, u)] else acc.1, u + 1)) ([], 0)
  if r.2 < n then r.1 ++ [(r.2, n)] else r.1

/-- R254: local extents the ledger holds as retired for the module of a port. -/
def retiredOn (s : State) (p : Fin 24) (d : ModDesc) : List Nat :=
  (s.pool.retiredExt.filter fun r => r.1 == p.val && r.2.2.1 == d.maker && r.2.2.2.1 == d.product && r.2.2.2.2 == d.capGiB).map (·.2.1)

/-- No backing extent: the place of a copy that is lost. -/
abbrev noBx : Nat := 2 ^ 23

/-- A backing extent at a copy index among three places. -/
def placeCopy (copy bx : Nat) (t : Nat × Nat × Nat) : Nat × Nat × Nat :=
  match copy with | 0 => (bx, t.2.1, t.2.2) | 1 => (t.1, bx, t.2.2) | _ => (t.1, t.2.1, bx)

/-- R181: a valid record enters the page map. -/
def keepRecord (s : State) (r : ExtRecord) : State := s.updPool fun q => { q with recs := q.recs ++ [r] }

/-- R181: an allocated record whose fabric extent the map does not hold yet; of a TRIPLE extent the other copies are missing so
far, and are rebuilt within the 3 that the extent is charged (R188, R238). -/
def newMapped (s0 : State) (r : ExtRecord) : State :=
  let c := placeCopy r.copy r.bx (noBx, noBx, noBx)
  let n := if r.triple then 3 else 1
  let s := updPart (keepRecord s0 r) r.part fun x => { x with alloc := x.alloc + n, shAlloc := x.shAlloc + n }
  s.updPool fun q => { q with
    fxs := q.fxs ++ [{ fx := r.fx, bx := if r.triple then c.1 else r.bx, state := .allocated, triple := r.triple, tidx := r.tidx, part := r.part }],
    triples := if r.triple then q.triples ++ [(r.tidx, c.2.1, c.2.2)] else q.triples,
    degraded := if r.triple then q.degraded ++ ([0, 1, 2].filter (· != r.copy)).map fun i => (r.fx, i) else q.degraded }

/-- R181: a further copy of a TRIPLE extent found. -/
def addCopy (s : State) (e : FxEntry) (r : ExtRecord) : State :=
  (keepRecord s r).updPool fun q => { q with
    fxs := if r.copy = 0 then updFirst (fun (x : FxEntry) => x.fx == e.fx) (fun x => { x with bx := r.bx }) q.fxs else q.fxs,
    triples := q.triples.map fun t => if t.1 == e.tidx then (t.1, (placeCopy r.copy r.bx (0, t.2)).2) else t,
    degraded := q.degraded.filter (· != (e.fx, r.copy)) }

/-- R181: one record of a module read: a retired one keeps its extent retired, one that claims an FX and COPY already claimed is
recorded and its extent is free. -/
def readRecord (s : State) (r : ExtRecord) : State :=
  if r.retired then s.updPool fun q => { q with recs := q.recs ++ [r] }
  else match fxEntry s r.fx with
    | none => newMapped s r
    | some e =>
      if !s.pool.rebuilt && e.triple && r.triple && s.pool.degraded.contains (e.fx, r.copy) then addCopy s e r
      else logClass s 0x32 6 0 (some (4, r.bx)) (some r.part)

/-- R180, R181: the records of the module of a port are read: those that fail are skipped, and those of another module. -/
def readRecords (s : State) (p : Fin 24) (d : ModDesc) (base : Nat) (failed : List Nat) : State :=
  let m := (s.port p).mem
  let own := if m.storedId = (d.maker, d.product, d.capGiB) then m.stored else []
  let rs := (own.map fun r => { r with bx := base + r.bx }).filter fun r => !(failed.contains r.bx)
  rs.foldl readRecord (s.updPort p fun x => { x with mem := { x.mem with stored := [], storedId := (0, 0, 0) } })

/-- R165, R175, R181: a port contributes a module at a base: its records are read, its metadata area is allocated to partition 0,
extents that the records or the ledger keep are not free, and the rest are free in ascending order. -/
def addPort (s0 : State) (p : Fin 24) (d : ModDesc) (base : Nat) (failed : List Nat := []) : State :=
  let ek := extentsOf d.capGiB
  let mk := metaOf ek
  let s := readRecords s0 p d base failed
  let kept := s.pool.recs.filter fun r => decide (base ≤ r.bx ∧ r.bx < base + ek)
  let gone := (retiredOn s p d).filter fun e => decide (e < ek - mk) && !(kept.any fun r => r.bx == base + e)
  let new := gone.map fun e => ({ bx := base + e, retired := true } : ExtRecord)
  let free := freeRuns (ek - mk) ((kept.map fun r => r.bx - base) ++ gone)
  let nFree := (free.map fun r => r.2 - r.1).sum
  let nRet := gone.length + kept.countP (·.retired)
  let s1 := s.updPort p fun x => { x with mem := { x.mem with
    desc := some d, taken := true, ek := ek, metaExt := mk, bxBase := base, reserved := some (base, ek), pushed := [], fresh := free,
    away := false, unreachable := false, verifying := false } }
  let s2 := s1.updPool fun q => { q with recs := q.recs ++ new, shFree := q.shFree + nFree, shRetired := q.shRetired + nRet,
                                         shAllocated := q.shAllocated + mk + kept.countP fun r => !r.retired }
  rootPorts (updPart s2 0 fun x => { x with alloc := x.alloc + mk, shAlloc := x.shAlloc + mk }) [p]

/-- R189: an ALLOCATED extent whose records fail: a STANDARD extent becomes LOST. -/
def loseExtent (s : State) (fx : Nat) : State :=
  match fxEntry s fx with
  | none => s
  | some e =>
    if e.state == .allocated then makeLost ((liveCopies s e).foldl (fun s c => freeBx s c.2 e.part) s) fx e.part else s

/-- R189: the record of a backing extent fails: its extent becomes LOST, or its TRIPLE copy is lost. -/
def recordFails (s : State) (bx : Nat) : State :=
  match recOf s bx with
  | none => s
  | some r =>
    if r.retired then s
    else if r.triple then
      let s1 := loseCopy s r.fx r.copy
      pushFree (s1.updPool fun q => { q with recs := q.recs.filter (·.bx != bx), shAllocated := q.shAllocated - 1, shFree := q.shFree + 1 }) bx
    else loseExtent s r.fx

/-- R254: an extent that the ledger lists as retired while its record holds an allocation: it is lost, and retired. -/
def retireAllocated (s : State) (p : Fin 24) (e : Nat) : State :=
  let bx := (s.port p).mem.bxBase + e
  match recOf s bx with
  | none => s
  | some r =>
    if r.retired then s
    else
      let s1 := recordFails s bx
      match takeFree (s1.port p).mem e with
      | none => s1
      | some m =>
        recWrite ((s1.updPort p fun x => { x with mem := m }).updPool fun q => { q with
          recs := q.recs ++ [{ bx := bx, retired := true }], shFree := q.shFree - 1, shRetired := q.shRetired + 1 }) bx

/-- R254: the ledger's retirements applied to a port's module; those of another module are removed from the ledger, and their
removal recorded. -/
def applyRetired (s : State) (p : Fin 24) (d : ModDesc) : State :=
  let s1 := (retiredOn s p d).foldl (fun s e => retireAllocated s p e) s
  let other := fun (r : Nat × Nat × Nat × Nat × Nat) => r.1 == p.val && !(r.2.2.1 == d.maker && r.2.2.2.1 == d.product && r.2.2.2.2 == d.capGiB)
  let gone := s1.pool.retiredExt.filter other
  let s2 := s1.updPool fun q => { q with retiredExt := q.retiredExt.filter fun r => !(other r) }
  let s3 := { s2 with led := { s2.led with retirements := s2.led.retirements.filter fun r => !(r.1 == 0 && gone.contains r.2) } }
  gone.foldl (fun s r => ledgerRecord s 5 (retireBody (0, r) 0).2) s3

/-- R165, R189: the range of a port is released: every extent in it fails, and the port no longer contributes. -/
def releaseRange (s : State) (p : Fin 24) : State :=
  let m := (s.port p).mem
  if !m.taken then s
  else
    let mine := (s.pool.recs.filter fun r => decide (m.bxBase ≤ r.bx ∧ r.bx < m.bxBase + m.ek)).map (·.bx)
    let s1 := mine.foldl recordFails (s.updPort p fun x => { x with mem := { x.mem with unreachable := true } })
    let left := s1.pool.recs.countP fun r => r.retired && decide (m.bxBase ≤ r.bx ∧ r.bx < m.bxBase + m.ek)
    let free := freeOf (s1.port p).mem
    let s2 := s1.updPool fun q => { q with recs := q.recs.filter (fun r => !(decide (m.bxBase ≤ r.bx ∧ r.bx < m.bxBase + m.ek))),
                                           shFree := q.shFree - free, shRetired := q.shRetired - left, shAllocated := q.shAllocated - m.metaExt }
    let s3 := updPart s2 0 fun x => { x with alloc := x.alloc - m.metaExt, shAlloc := x.shAlloc - m.metaExt }
    let gone := fun (m : PortMem) =>
      { m with taken := false, ek := 0, metaExt := 0, bxBase := 0, pushed := [], fresh := [], away := false, unreachable := false,
               verifying := false, reserved := none }
    rootPorts (s3.updPort p fun x => { x with mem := gone x.mem }) [p]

/-- R189, R254: the module a port held last: MAKER, PRODUCT and capacity. -/
def moduleSame (m : PortMem) (d : ModDesc) : Bool := match m.desc with | some e => e.maker == d.maker && e.product == d.product && e.capGiB == d.capGiB | none => false

/-- R189, R238: a TRIPLE copy that was lost while its port was away is freed; it is rebuilt elsewhere. -/
def freeStale (s : State) (p : Fin 24) : State :=
  let stale := fun (r : ExtRecord) => r.triple && !r.retired && ((bxPort s r.bx).map (·.1)) == some p &&
    !(match fxEntry s r.fx with | some e => (liveCopies s e).any (·.2 == r.bx) | none => false)
  ((s.pool.recs.filter stale).map (·.bx)).foldl (fun s bx => pushFree (s.updPool fun q => { q with
    recs := q.recs.filter (·.bx != bx), shAllocated := q.shAllocated - 1, shFree := q.shFree + 1 }) bx) s

/-- R189: the records of a module that is back have been read: its extents can be reached again, but for those whose records fail. -/
def verifyPort (failed : List Nat) (s : State) (p : Fin 24) : State :=
  let m := (s.port p).mem
  if m.taken && m.verifying then
    let s1 := s.updPort p fun x => { x with mem := { x.mem with unreachable := false, verifying := false } }
    let mine := (s1.pool.recs.filter fun r => decide (m.bxBase ≤ r.bx ∧ r.bx < m.bxBase + m.ek) && failed.contains r.bx).map (·.bx)
    rootPorts (freeStale (mine.foldl recordFails s1) p) [p]
  else s

/-- R165: a module offered to the pool while the device runs, or before the pool is rebuilt: the state with it taken, or
none when it is refused. -/
def takeModule (s : State) (p : Fin 24) (d : ModDesc) : Option State :=
  if !(moduleOk s p d) then none
  else if !s.pool.rebuilt then
    some (s.updPort p fun x => { x with mem := { x.mem with desc := some d, taken := true, ek := 0 } })
  else
    let m := (s.port p).mem
    let ek := extentsOf d.capGiB
    if m.taken && m.ek == ek && moduleSame m d then
      some (s.updPort p fun x => { x with mem := { x.mem with desc := some d, away := false, verifying := x.mem.unreachable } })
    else
      let s1 := releaseRange s p
      let same := match m.reserved with
        | some (b, n) => if n == ek && (heldRanges s1 p).all (fun r => decide (b + n ≤ r.1 ∨ r.1 + r.2 ≤ b)) then some b else none
        | none => none
      (same.or (firstFit (heldRanges s1 p) ek)).map fun b => applyRetired (addPort s1 p d b) p d

/-- R164: a module refused: recorded; a range it held is released. -/
def refuseModule (s : State) (p : Fin 24) (d : ModDesc) : State :=
  let s1 := releaseRange s p
  logClass (s1.updPort p fun x => { x with mem := { x.mem with desc := some d, taken := false } }) 0x30 1 p

/-- R165: after a range has been released, the modules that were refused are offered to the pool again. -/
def offerRefused (s : State) : State :=
  (List.finRange 24).foldl (fun s p =>
    match (s.port p).mem.desc with
    | some d => if isMem s p && !(s.port p).mem.taken && linkUp s p then (takeModule s p d).getD s else s
    | none => s) s

end Sys2Proof.Machine
end

