-- ==== Sys2Proof/Machine/Walkers.lean ====
section
/-! DEFINITION. The walkers and sweeps of a slice: drain and flush walkers (R156, R159, R160), the sweep of a disabled cache
(R157), disown sweeps (R135), persist sweeps (R160), discards (R182) and page copies (R305). -/

namespace Sys2Proof.Machine
open Sys2Proof

/-! ## Drain and flush walkers -/

/-- R156, R159: the copy of one O line of a frame starts: an entry is reserved, the line is read, and its OWNED bit is
cleared. -/
def walkLine (s : State) (k : Fin 16) (f j : Nat) : Option (State × Nat) :=
  let x := frameGet s f
  let line := x.hank * 64 + j
  match reserveWb s k line x.part .data (targetsOf s line) true with
  | none => none
  | some (s1, w) =>
    let s2 := (hbmReadLine s1 k f j x.part (.walk f line w)).1
    let y := frameGet s2 f
    some (frameSet s2 { y with owned := y.owned &&& ~~~ (oneHot j) }, w)

/-- The O lines of the present frames of a local set that a walker visits: frame and line of the hank. -/
def walkTargets (s : State) (k : Fin 16) (w : Walker) : List (Nat × Nat) :=
  (List.range 16).flatMap fun i =>
    let f := frameOf s.fuses.is144 k w.next i
    let x := frameGet s f
    if x.state == .present && (w.all || decide (w.lo ≤ x.hank ∧ x.hank < w.hi)) then (maskBits x.owned).map fun j => (f, j) else []

/-- The walker after its set: the next one, or at rest after the last. -/
def walkerNext (is144 : Bool) (w : Walker) : Walker := if w.next + 1 < setsPerSlice is144 then { w with next := w.next + 1 } else {}

/-- R156: the copy of a walker's set is there: it lies in the tag-set table, and nothing more is asked. -/
def tagHere (s : State) (k : Fin 16) (ls : Nat) : Bool := (s.slc k).tst.any fun e => e.ls == ls && e.copyValid

/-- DRAIN_WALKER_STEP: the drain walker of a slice, or its flush walker, asks for its set through the tag-set table, and once the copy is
there starts the copy of the next O line of the set, one in a pass (R16); after the last it goes to the next set. Its passes are
taken when no source of Table HOM-3 is ready (R156). -/
def walkerStep (k : Fin 16) (s : State) : State :=
  let flush := !(s.slc k).drain.active
  let w := if flush then (s.slc k).flush else (s.slc k).drain
  if !w.active then s
  else
    let put := fun (s : State) (w' : Walker) =>
      updTst (s.updSlc k fun sl => if flush then { sl with flush := w' } else { sl with drain := w' }) k w.next fun e => { e with walk := false }
    let pass := fun (s : State) => do
      if !(tagHere s k w.next) then
        (tagRead s k w.next).map fun s1 => updTst s1 k w.next fun e => { e with walk := true }
      else
        match walkTargets s k w with
        | [] => Except.ok (put s (walkerNext s.fuses.is144 w))
        | (f, j) :: rest =>
          match walkLine s k f j with
          | none => .error .backing
          | some (s1, e) =>
            let s2 := noteEntries s1 [(k.val, e)]
            .ok (if rest.isEmpty then put s2 (walkerNext s.fuses.is144 w) else s2)
    settle (runPass (inTurn s k 7) k .internalPass 0 pass) k

/-- DRAIN_WALKER_STEP (R156, R159, R160). -/
def execDrainWalkerStep (slice : Fin 16) (s : State) : Host.Outcome State Fault Refusal := runCmd (walkerStep slice) s

/-- R157: a slice of a DISABLED cache writes the present frames of its next set free. -/
def disableStep (k : Fin 16) (s : State) : State :=
  match (s.slc k).sweepOff with
  | none => s
  | some ls =>
    let s1 := (List.range 16).foldl (fun s i =>
      let f := frameOf s.fuses.is144 k ls i
      if (frameGet s f).state == .present then frameSet s { num := f, state := .free } else s) s
    s1.updSlc k fun sl => { sl with sweepOff := if ls + 1 < setsPerSlice s.fuses.is144 then some (ls + 1) else none }

/-- DISABLE_SWEEP_STEP (R157). -/
def execDisableSweepStep (slice : Fin 16) (s : State) : Host.Outcome State Fault Refusal := runCmd (disableStep slice) s

/-! ## Disown sweeps (R134, R135) -/

/-- R135: the lines of the next store set without a cache way, and those of the unpinned ways of its cache set. -/
def sweepLines (sl : Slice) (set : Nat) : List Nat :=
  ((sl.dstore.filter fun e => e.set == set && (dcFind sl (entryLine e)).isNone).map entryLine) ++
  (sl.dcache.filter fun w => w.set == set % 4096 && !(wayPinned sl w.set w.way)).map wayLine

/-- R135: when every slice has finished, the bits of the disown mask are cleared and the IDs leave disowning. -/
def disownEnd (s : State) : State :=
  if (List.finRange 16).all (fun k => (s.slc k).disownPos.isNone) then
    (maskBits s.disown).foldl (fun s a => s.updBind a fun b =>
      if b.status == .disowning then { b with status := b.after, after := .idle } else b) { s with disown := 0 }
  else s

/-- R135, R160: a sweep takes a store set through the store access table: what it does with the set is done once the copy is there. -/
def sweepSet (k : Fin 16) (set : Nat) (work : State → PassM) (s : State) : PassM := do
  let s1 ← satRead s k set
  if ((satFind (s1.slc k) set).getD {}).copyValid then
    (work s1).map fun s2 => satFree (updSat s2 k set fun e => { e with sweep := false }) k set
  else .ok (updSat s1 k set fun e => { e with sweep := true })

/-- DISOWN_SWEEP_STEP (R135). In containment no sweep runs (R266). -/
def disownStep (k : Fin 16) (found : WayErr) (s : State) : State :=
  match (s.slc k).disownPos with
  | none => s
  | some set =>
    if s.cons.contained then s
    else
      let work := fun (s : State) =>
        ((sweepLines (s.slc k) set).foldlM (fun s l => applyMask s k l (partOf s l)) s).map fun (s1 : State) =>
          s1.updSlc k fun sl => { sl with disownPos := if set + 1 < 2 ^ 21 then some (set + 1) else none }
      let pass := withFound k (laddrOf 0 set) found (sweepSet k set work)
      let s0 := inTurn s k 7
      settleFault s0 (settle (disownEnd (runPass s0 k .internalPass 0 (if found == .none then sweepSet k set work else pass))) k)

/-- DISOWN_SWEEP_STEP (R135). -/
def execDisownSweepStep (pass : SlicePass) (s : State) : Host.Outcome State Fault Refusal := runCmd (disownStep pass.slice pass.found) s

/-! ## Persist sweeps (R160) -/

/-- R160: the X lines of a store set in a range of fabric addresses, as the disown mask leaves them. -/
def persistLines (s : State) (k : Fin 16) (set base len : Nat) : List Nat :=
  let sl := s.slc k
  let ls := ((sl.dstore.filter fun e => e.set == set && (dcFind sl (entryLine e)).isNone).map entryLine) ++
    (sl.dcache.filter fun w => w.ssetHi * 4096 + w.set == set).map wayLine
  ls.filter fun l => decide (base ≤ l * 64 ∧ l * 64 < base + len) && (dirOf s k l).state == .X &&
    !(sl.txns.any fun t => t.kind == .flush && t.msg.laddr == l)

/-- R160, R306: a slice whose sweep has ended starts its flush walker over the range, unless the cache is DISABLED. -/
def persistWalk (s : State) (k : Fin 16) (w : Work) : State :=
  s.updSlc k fun sl => { sl with
    persistPos := none,
    flush := if s.hbm.cache == .disabled then sl.flush
             else { active := true, next := 0, lo := w.arg0 / 4096, hi := (w.arg0 + w.arg1) / 4096, all := false } }

/-- PERSIST_SWEEP_STEP (R160): a FLUSH_LINE is injected for each X line of the next store set. -/
def persistStep (k : Fin 16) (s : State) : State :=
  match (s.slc k).persistPos, findWork s 0x0503 with
  | some set, some w =>
    if s.cons.contained then s
    else
      let work := fun (s : State) =>
        ((persistLines s k set w.arg0 w.arg1).foldlM (fun s l => acceptInternal s k .flush { op := .flushLine, laddr := l }) s).map fun (s1 : State) =>
          if set + 1 < 2 ^ 21 then s1.updSlc k fun sl => { sl with persistPos := some (set + 1) } else persistWalk s1 k w
      settle (runPass (inTurn s k 7) k .internalPass 0 (sweepSet k set work)) k
  | _, _ => s

/-- PERSIST_SWEEP_STEP (R160). -/
def execPersistSweepStep (slice : Fin 16) (s : State) : Host.Outcome State Fault Refusal := runCmd (persistStep slice) s

/-! ## Discards (R182, R303) -/

/-- R303: the next line from one on that lies in a window of the device; lines in none are skipped. -/
def nextMapped (s : State) (stop : Nat) : Nat → Nat → Nat
  | 0, l => l
  | n + 1, l =>
    if stop ≤ l then l
    else if (windowOf s (l * 64)).isNone then
      let bases := ((List.range 256).filter fun p => cfgGet s keyWinSize p != 0 && decide (l * 64 < cfgGet s keyWinBase p)).map fun p => cfgGet s keyWinBase p / 64
      nextMapped s stop n (bases.foldl min stop)
    else if (homeOf s (l * 64)).1 != ownIndex s then
      let g := 2 ^ cfgGet s keyGran 0
      nextMapped s stop n ((l * 64 / g + 1) * g / 64)
    else l

/-- R182: a page begins to be discarded. -/
def beginDiscard (s : State) (page : Nat) : State :=
  s.updPool fun q => { q with discards := if q.discards.any (·.1 == page) then q.discards else q.discards ++ [(page, 0)] }

/-- DISCARD_STEP (R182): the internal transaction of the next line of the range that the device is home to. -/
def discardStep (s : State) : State :=
  match (findWork s 0x0410).or (findWork s 0x0413) with
  | none => s
  | some w =>
    let stop := (w.arg0 + w.arg1) / 64
    let l := nextMapped s stop 1024 w.arg2
    if stop ≤ l || (windowOf s (l * 64)).isNone || (homeOf s (l * 64)).1 != ownIndex s then
      checkWorks (updWork s w { w with arg2 := min l stop })
    else
      let k := sliceOf l
      let w1 := { w with arg2 := l + 1, entries := if w.entries.any (·.1 == hankOf l) then w.entries else w.entries ++ [(hankOf l, 0)] }
      let pass := fun (s : State) =>
        (acceptInternal (beginDiscard s (hankOf l)) k .discard { op := .wrFull, laddr := l, size := 6, be := BitVec.allOnes 64 }).map
          fun s1 => updWork s1 w w1
      settle (runPass s k .internalPass (partOf s l) pass) k

/-- DISCARD_STEP (R182). -/
def execDiscardStep (s : State) : Host.Outcome State Fault Refusal := runCmd discardStep s

/-! ## Page copies (R305) -/

/-- R305: the read of the next line of a PAGE_COPY, or the write of the line read. -/
def copyPhase (s : State) : State :=
  match findWork s 0x0412 with
  | none => s
  | some w =>
    if !w.entries.isEmpty then s
    else
      let src := w.arg0 / 64 + w.arg2
      let dst := w.arg3 / 64 + w.arg2
      match s.mgmt.dmaLines with
      | (_, d, p) :: _ =>
        let k := sliceOf dst
        let m : RxMsg := { op := .wrFull, laddr := dst, size := 6, data := d, poison := p, be := BitVec.allOnes 64 }
        let pass := fun (s : State) => (acceptInternal s k .copyWrite m).map fun s1 => updWork s1 w { w with entries := [(k.val, (s.slc k).nextTxn)] }
        settle (runPass s k .internalPass (partOf s dst) pass) k
      | [] =>
        let k := sliceOf src
        if (s.slc k).txns.any fun t => t.kind == .copyRead && t.msg.laddr == src then s
        else settle (runPass s k .internalPass (partOf s src) fun s => acceptInternal s k .copyRead { op := .rdOnce, laddr := src }) k

/-- PAGE_COPY_STEP (R305). -/
def execPageCopyStep (s : State) : Host.Outcome State Fault Refusal := runCmd (fun s => copyPhase (copyPhase s)) s

end Sys2Proof.Machine
end

