-- ==== Sys2Proof/Machine/Protect.lean ====
section
/-! DEFINITION. Copies of extents (R238, R251), bank relocation (R253), patrol (R246, R247) and scrubs (R248). -/

namespace Sys2Proof.Machine
open Sys2Proof

/-! ## Copies to spares -/

/-- The copy job of a fabric extent and copy index. -/
def findJob (s : State) (fx copy : Nat) : Option ExtJob := s.pool.jobs.find? fun j => j.fx == fx && j.copy == copy

/-- A job changed. -/
def setJob (s : State) (j j' : ExtJob) : State := s.updPool fun q => { q with jobs := q.jobs.map fun x => if x = j then j' else x }

/-- R251 step 3: the copy of one line starts: a COPY entry is reserved and the line read, unless the buffer holds an entry. -/
def copyLine (k : Fin 16) (j : ExtJob) (line part : Nat) (s : State) : PassM :=
  let next := fun (s : State) => setJob s j { j with next := j.next + 1 }
  if wbAny s k line then .ok (next s)
  else
    let ts := (spareTargets s line).filter fun t => (bxPort s j.newBx).any fun x => t.port == x.1 && t.maddr / 32768 == x.2
    match reserveWb s k line part .copy ts false with
    | none => .error .backing
    | some (s1, w) =>
      match homeSource s1 line with
      | .back => .ok (next (issueBack s1 k line part none none (some w)).1)
      | .zero => .ok (next (fillReserved s1 k w line 0 false))
      | .poison => .ok (next (fillReserved s1 k w line 0 true))

/-- R251: a job goes on by one line; at its end the extent is switched to the spare. -/
def copyStep (s : State) (j : ExtJob) : State :=
  match fxEntry s j.fx with
  | none => orphanCopy s j
  | some e =>
    if e.state != .allocated then orphanCopy s j
    else if j.next < 32768 then
      if pageWritten s j.fx (j.next / 64) then
        let line := fabricOf s (j.fx * 2 ^ 21 + j.next * 64) / 64
        let k := sliceOf line
        settle (runPass s k .internalPass e.part (copyLine k j line e.part)) k
      else setJob s j { j with next := (j.next / 64 + 1) * 64 }
    else if spareBusy s j then s
    else checkWorks (finishCopy s e j)

/-- EXTENT_RETIREMENT_COPY (R251): the copy of an extent being retired goes on. -/
def extentCopy (fx copy : Nat) (s : State) : State :=
  match findJob s fx copy with
  | some j => if j.oldBx.isSome && !s.cons.contained then checkWorks (copyStep s j) else s
  | none => s

/-- EXTENT_RETIREMENT_COPY (R251). -/
def execExtentRetirementCopy (fx : Nat) (copy : Nat) (s : State) : Host.Outcome State Fault Refusal := runCmd (extentCopy fx copy) s

/-- TRIPLE_REBUILD (R238): the rebuild of a lost copy starts when a port is eligible, and goes on. -/
def tripleRebuild (fx copy : Nat) (s : State) : State :=
  if s.cons.contained then s
  else
    match findJob s fx copy with
    | some j => if j.oldBx.isNone then copyStep s j else s
    | none =>
      if s.pool.degraded.contains (fx, copy) then
        match fxEntry s fx with
        | some e => (startCopy s e copy none).getD s
        | none => s
      else s

/-- TRIPLE_REBUILD (R238). -/
def execTripleRebuild (fx : Nat) (copy : Nat) (s : State) : Host.Outcome State Fault Refusal := runCmd (tripleRebuild fx copy) s

/-- BANK_RELOCATION (R253): the next block of an excluded bank is copied to a spare block. -/
def execBankRelocation (s : State) : Host.Outcome State Fault Refusal := runCmd (fun s => checkWorks (relocateNext s)) s

/-! ## Reads of patrol and scrub -/

/-- R253: a block of the retirement spares is in use: it holds a copy of the relocation table, or a block is relocated to it. -/
def spareInUse (s : State) (block : Nat) : Bool :=
  let n := block - spareStart s.fuses.is144
  (decide (n < 2048) && n % 4 != 3) || s.hbm.reloc.any fun e => e.2 == block

/-- R246: an HBM line that patrol and scrub skip: a cache-data line that is not valid, or a spare block not in use. -/
def skipHbm (s : State) (ha : Nat) : Bool :=
  let n := hankCount s.fuses.is144
  if ha < cacheBase then false
  else
    let f := (ha - cacheBase) / 4096
    if f < n then
      let x := frameGet s f
      !((x.state == .present || x.state == .evicting) && x.valid.getLsbD (ha / 64 % 64))
    else !(spareInUse s (ha / 4096))

/-- Table PROT-4: a UE found in a line of cache data: an O line is rewritten poisoned, a C line is read again from its home
source. -/
def cacheUe (s : State) (ha : Nat) : State :=
  let f := (ha - cacheBase) / 4096
  let k := frameSlice s f
  let x := frameGet s f
  let j := ha / 64 % 64
  let line := x.hank * 64 + j
  if x.owned.getLsbD j then hbmWriteLine (frameSet s { x with poison := x.poison ||| oneHot j }) f j 0 true x.part
  else if x.state == .present then
    let s1 := frameSet s { x with valid := x.valid &&& ~~~ (oneHot j), poison := x.poison &&& ~~~ (oneHot j) }
    match wbLive s1 k line with
    | some e => installC s1 f line (if e.kind == .zero then 0 else e.data) e.poison
    | none =>
      match homeSource s1 line with
      | .zero => installC s1 f line 0 false
      | .poison => installC s1 f line 0 true
      | .back => (issueBack s1 k line x.part (some f) none none).1
  else s

/-- Table PROT-4: a UE in the metadata below the cache data, by its region. -/
def metaUe (s : State) (ha : Nat) : State :=
  if ha < 0x200000000 then
    let k : Fin 16 := ⟨ha / 256 / 2 ^ 21 % 16, Nat.mod_lt _ (by decide)⟩
    let set := ha / 256 % 2 ^ 21
    match loseEntries s k set ((List.range 4).map fun i => 4 * (ha / 64 % 4) + i) with
    | .ok s1 => settle s1 k
    | .error _ => s
  else if ha < 0x240000000 then
    let n := (ha - 0x200000000) / 512
    let k : Fin 16 := ⟨n / setsPerSlice s.fuses.is144 % 16, Nat.mod_lt _ (by decide)⟩
    let q : Fin 8 := ⟨ha / 64 % 8, Nat.mod_lt _ (by decide)⟩
    [2 * q.val, 2 * q.val + 1].foldl (fun s w => rebuildTag s k (n % setsPerSlice s.fuses.is144) [q] w) s
  else if ha < 0x274000000 then loseMapLine s ha
  else if 0x276000000 ≤ ha ∧ ha < 0x276100000 ∧ ha / 4096 % 4 < 3 then
    tripleRead s (rootCopy ((ha - 0x276000000) / 16384 * 64 + ha / 64 % 64)) [ha / 64 * 64]
  else if 0x290000000 ≤ ha ∧ ha < 0x290400000 then
    let i := (ha - 0x290000000) / 64
    { s with prot := { s.prot with log := s.prot.log.map fun r => if r.seq % 65536 == i then { r with lost := true } else r } }
  else if 0x290400000 ≤ ha ∧ ha < 0x292400000 then { s with sec := { s.sec with stagedBad := true } }
  else s

/-- Table PROT-4: a UE of a read of device HBM, by its region; in the retirement spares, a copy of the relocation table is voted, and a
block in use is handled as the region whose block is relocated there. -/
def regionUe (s : State) (ha : Nat) : State :=
  let is144 := s.fuses.is144
  let n := ha / 4096 - spareStart is144
  if ha < cacheBase then metaUe s ha
  else if ha < cacheBase + hankCount is144 * 4096 then cacheUe s ha
  else if n < 2048 && n % 4 != 3 then tripleRead s (relocCopy is144 (n / 4 * 64 + ha / 64 % 64)) [ha / 64 * 64]
  else match relocHome s ha with
    | some h => metaUe s h
    | none => s

/-- R246, R247: a read of an HBM line is decoded and its errors are handled. -/
def scrubHbm (s : State) (ha : Nat) (err : HbmErr) : State × ScrubFound :=
  let f := (ha - cacheBase) / 4096
  let poison := decide (cacheBase ≤ ha) && (frameGet s f).poison.getLsbD (ha / 64 % 64)
  let s0 := hbmAccess s ha 0 false
  match hbmReadDecoded s0 ha (hbmLine s ha) (poison || hbmPoison s ha) err with
  | .good _ q fixed =>
    if fixed = 0 || q then (s0, {})
    else
      let r := hbmCe s0 ha fixed
      (r.1, { ce := true, persistent := r.2 })
  | .ue m => (regionUe (hbmUe s0 ha m) ha, { ue := true })

/-- R246, R186: a line of a memory port is asked for: MEM_RD, charged to partition 0. -/
def askBacking (s : State) (p : Fin 24) (maddr : Nat) (patrol : Bool) : State :=
  let x := lineOfMaddr s p maddr
  let line := match x with | some y => y.2 | none => 0
  memEnqueue s p { kind := 0, maddr := maddr, part := 0, line := line, why := .scrub patrol (x.map fun y => sliceOf y.2) }

/-- R248: a running scrub's target holds an HBM address, or a line of a memory port: patrol is suspended there. -/
def scrubCovers (s : State) (hbm : Bool) (port addr : Nat) : Bool :=
  let c := s.prot.scrub
  c.state == 1 && c.hbm == hbm && (hbm || c.port == port) && decide (c.start ≤ addr ∧ addr < c.stop)

/-- R246: the next HBM line of the patrol. -/
def patrolHbm (err : HbmErr) (s : State) : State :=
  if cfgGet s keyPatrolHbm 0 = 0 || !s.hbm.initDone then s
  else
    let ha := s.prot.patrolHbm
    let s1 := { s with prot := { s.prot with patrolHbm := if ha + 64 < hbmTop s.fuses.is144 then ha + 64 else 0 } }
    if scrubCovers s true 0 ha || skipHbm s1 ha then s1 else settleAll (scrubHbm s1 ha err).1

/-- R246: the next line of the patrol of a memory port. -/
def patrolBacking (p : Fin 24) (s : State) : State :=
  if cfgGet s keyPatrolBacking 0 = 0 || !(s.port p).mem.taken then s
  else
    let a := s.prot.patrolBacking[p]
    let s1 := { s with prot := { s.prot with patrolBacking := s.prot.patrolBacking.set p (if a + 1 < (s.port p).mem.ek * 32768 then a + 1 else 0) } }
    if scrubCovers s false p.val a || skipBacking s p a || portUnreachable s p then s1 else askBacking s1 p a true

/-- PATROL_READ (R246, R247): the next line of the HBM patrol, or of that of a memory port. -/
def patrolRead (target : PatrolTarget) (err : HbmErr) (s : State) : State :=
  match target with | .hbm => patrolHbm err s | .backing p => patrolBacking p s

/-- PATROL_READ (R246, R247). -/
def execPatrolRead (target : PatrolTarget) (err : HbmErr) (s : State) : Host.Outcome State Fault Refusal := runCmd (patrolRead target err) s

/-! ## Scrubs (R248) -/

/-- R248: the next HBM line of the scrub. A UE in a line of cache data whose frame has been retagged since the scrub read its tag is
discarded as skipped (R247). -/
def scrubHbmStep (err : HbmErr) (retagged : Bool) (s : State) : State :=
  let ha := s.prot.scrub.next
  let s1 := s.updScrub fun x => { x with next := x.next + 64 }
  if skipHbm s ha then scrubEnd (s1.updScrub fun x => { x with skipped := x.skipped + 1 })
  else
    let r := scrubHbm s1 ha err
    if retagged && isCacheData s ha && r.2.ue then scrubEnd ((hbmAccess s1 ha 0 false).updScrub fun x => { x with skipped := x.skipped + 1 })
    else scrubEnd (settleAll (r.1.updScrub fun x => scrubCount x ha r.2))

/-- R248: the next line of the scrub of a memory port is asked for; it is counted when its answer comes. -/
def scrubBackingStep (p : Fin 24) (s : State) : State :=
  let a := s.prot.scrub.next
  let s1 := s.updScrub fun x => { x with next := x.next + 1 }
  if skipBacking s p a || !(s.port p).mem.taken || portUnreachable s p then scrubEnd (s1.updScrub fun x => { x with skipped := x.skipped + 1 })
  else askBacking (s1.updScrub fun x => { x with waiting := x.waiting + 1 }) p a false

/-- SCRUB_STEP (R248): the next line of the scrub. -/
def scrubStep (err : HbmErr) (retagged : Bool) (s : State) : State :=
  let c := s.prot.scrub
  if c.state != 1 || decide (c.stop ≤ c.next) then s
  else if c.hbm then scrubHbmStep err retagged s
  else scrubBackingStep ⟨c.port % 24, Nat.mod_lt _ (by decide)⟩ s

/-- SCRUB_STEP (R248). -/
def execScrubStep (err : HbmErr) (retagged : Bool) (s : State) : Host.Outcome State Fault Refusal :=
  runCmd (scrubStep err retagged) s

end Sys2Proof.Machine
end

