-- ==== Sys2Proof/Machine/HbmCtl.lean ====
section
/-! DEFINITION. The HBM controllers: refresh and refresh management (R161), thermal steps (R162), interface calibration and
retraining (R364). -/

namespace Sys2Proof.Machine
open Sys2Proof

/-- R161: a per-bank refresh; HBM3E refresh management lowers RAA at it by an amount the spec does not give, which is left
free. -/
def refreshBank (i : Fin 4) (bank : Nat) (s : State) : State :=
  let x := s.hbm.stk[i]
  if x.trained then
    let (n, s1) := freshNat s
    activateHeld (countEv (s1.updStack i fun x => { setRaa x bank (min n (raaOf x bank)) with refreshes := x.refreshes + 1 }) 0x0304 i) i bank
  else s

/-- HBM_REFRESH (R161). -/
def execHbmRefresh (stack : Fin 4) (bank : Nat) (s : State) : Host.Outcome State Fault Refusal := runCmd (refreshBank stack bank) s

/-- R161: the RAA at which a bank receives refresh management: RAAIMT, divided by HBM_RFM_DIVISOR. -/
def rfmAt (s : State) (i : Fin 4) : Nat := s.hbm.stk[i].raaimt / max 1 (cfgGet s keyRfmDiv 0)

/-- R161: the RFMpb of a bank whose RAA has reached its level lowers RAA by that amount; accesses that waited at RAAMMT are activated. -/
def refreshManage (i : Fin 4) (bank : Nat) (s : State) : State :=
  let n := rfmAt s i
  let x := s.hbm.stk[i]
  if x.trained && decide (n ≤ raaOf x bank) then
    activateHeld (countEv (s.updStack i fun x => { setRaa x bank (raaOf x bank - n) with rfms := x.rfms + 1 }) 0x0305 i) i bank
  else s

/-- RFMPB (R161). -/
def execRfmpb (stack : Fin 4) (bank : Nat) (s : State) : Host.Outcome State Fault Refusal := runCmd (refreshManage stack bank) s

/-- Table MSC-7: the entry threshold of a thermal step in 0.1 degrees; the reading must be above it. -/
def stepAt : Nat → Int | 1 => 850 | 2 => 950 | _ => 1000

/-- R162: the thermal step a reading leaves a stack in: a step is left 3 degrees below its threshold. -/
def thermalStep (cur : Nat) (t : Int) : Nat :=
  let isIn := fun n => decide (stepAt n < t) || (decide (n ≤ cur) && decide (stepAt n - 30 < t))
  if isIn 3 then 3 else if isIn 2 then 2 else if isIn 1 then 1 else 0

/-- R162: a temperature reading of a stack; entry to or exit from a step is notified. -/
def tempRead (i : Fin 4) (t : Int) (s : State) : State :=
  let old := s.hbm.stk[i].step
  let new := thermalStep old t
  let s1 := s.updStack i fun x => { x with temp := t, step := new }
  if new = old then s1 else notify s1 { ntype := 3, arg := i.val + new * 4 + (b2n (decide (old < new))) * 16 }

/-- HBM_TEMP_READ (R162). -/
def execHbmTempRead (stack : Fin 4) (temp : Int) (s : State) : Host.Outcome State Fault Refusal := runCmd (tempRead stack temp) s

/-- R364: a periodic interface calibration; drift beyond what it corrects sets the stack's retrain-pending bit. -/
def interfaceCal (i : Fin 4) (inMargin : Bool) (s : State) : State :=
  if s.hbm.stk[i].trained then
    s.updStack i fun x => { x with calibrations := x.calibrations + 1, retrainPending := x.retrainPending || !inMargin }
  else s

/-- HBM_INTERFACE_CALIBRATION (R364). -/
def execHbmInterfaceCalibration (stack : Fin 4) (inMargin : Bool) (s : State) : Host.Outcome State Fault Refusal :=
  runCmd (interfaceCal stack inMargin) s

/-- R364: a stack with retrain-pending is retrained while the cache is DISABLED. -/
def retrainStack (i : Fin 4) (s : State) : State :=
  if s.hbm.stk[i].retrainPending && s.hbm.cache == .disabled then s.updStack i fun x => { x with retrainPending := false, trained := true } else s

/-- HBM_RETRAIN (R364). -/
def execHbmRetrain (stack : Fin 4) (s : State) : Host.Outcome State Fault Refusal := runCmd (retrainStack stack) s

end Sys2Proof.Machine
end

