-- ==== Sys2Proof/Machine/Audit.lean ====
section
/-! DEFINITION. The auditors (R256 to R258), the census walkers (R261) and the sweep of the triplicated words (R239). -/

namespace Sys2Proof.Machine
open Sys2Proof

/-! ## Identities (Table CONS-1) -/

/-- An identity: IDENT and SUB of its fault code, and whether it holds. -/
abbrev Identity := Nat × Nat × Bool

/-- Frames of a slice in a state that a predicate names. -/
def frameCount (s : State) (k : Fin 16) (p : FrameState → Bool) : Nat :=
  s.hbm.frames.countP fun x => p x.state && sliceOfFrame s.fuses.is144 x.num == k.val

/-- R187: general entries of a partition, internal requests excluded. -/
def partEntries (sl : Slice) (p : Nat) : Nat := sl.txns.countP fun t => t.pool == .general && !t.internal && t.part == p

/-- R187: BOUND[p] of a slice. -/
def boundOf (s : State) (k : Fin 16) (p : Nat) : Nat :=
  match (s.slc k).bound.find? (·.1 == p) with | some x => max x.2 (cfgGet s keyTxnCap p) | none => cfgGet s keyTxnCap p

/-- R257: the identities of a slice, over its occupancies and its shadow counts, in ascending IDENT and SUB. -/
def sliceIdentities (s : State) (k : Fin 16) : List Identity :=
  let sl := s.slc k
  let o := occupancy sl
  let h := sl.shadow
  let sets := setsPerSlice s.fuses.is144
  let parts := ((sl.txns.map (·.part)).eraseDups).mergeSort (· ≤ ·)
  [(0x02, 0, h.genOpen == o.genOpen && h.genWait == o.genWait && decide (o.genOpen + o.genWait ≤ 928)),
   (0x02, 1, h.wbOpen == o.wbOpen && decide (o.wbOpen ≤ 64)),
   (0x02, 2, h.recOpen == o.recOpen && decide (o.recOpen ≤ 32)),
   (0x03, 0, h.frValid == frameCount s k (fun x => x == .present || x == .evicting) && h.frRetired == frameCount s k (· == .retired) &&
     decide (h.frValid + h.frRetired ≤ sets * 16)),
   (0x05, 0, h.wbuf == o.wbuf && decide (o.wbuf ≤ 512)),
   (0x06, 0, h.slots == o.slots && decide (o.slots ≤ 64)),
   (0x07, 0, h.snoopsOut == o.snoopsOut && sl.sent == sl.ansRsp + sl.ansTo + o.snoopsOut),
   (0x08, 0, sl.cls.retired + sl.cls.wasted + sl.cls.front + sl.cls.back == s.obs.cycles),
   (0x09, 0, h.dirValid == o.dirValid && h.dirDirty == o.dirDirty && h.stS == o.stS && h.stX == o.stX && h.sat == o.sat &&
     decide (o.dirValid ≤ 65536) && decide (o.dirDirty ≤ o.dirValid) && decide (o.stS + o.stX ≤ 33554432) &&
     decide (o.dirValid ≤ o.stS + o.stX) && decide (o.sat ≤ 64))] ++
  (parts.map fun p => (0x0A, p, decide (partEntries sl p ≤ boundOf s k p))) ++
  [(0x0B, 0, h.sbq == o.sbq && decide (o.sbq ≤ 64))]

/-- R258: B of a channel of a port: the slots of the messages of this link-up that the port holds. -/
def slotsHeld (s : State) (p : Fin 24) (v : Nat) : Nat :=
  let x := s.port p
  let mine := fun (q : List RxMsg) => ((q.filter fun m => m.epochs.port == x.epoch).map fun m => opSlots m.op).sum
  let answers := ((x.tx.cmpQ.filter fun m => m.credit && (if m.reqOp = 0x28 then v == 1 else v == 0)).map fun m =>
    if m.reqOp / 8 % 2 = 1 then 5 else 1).sum
  match v with
  | 0 => mine x.reqQ + answers
  | 1 => mine x.wbQ + answers
  | 3 => mine x.rspQ
  | 5 => (x.memQ.map fun m => if (x.mem.outstanding.find? (·.tag == m.tag)).any (·.req.kind == 0) then 5 else 1).sum
  | _ => 0

/-- R258: the credit identity of one channel of an Olilek port, as sender and as receiver. -/
def vcHolds (s : State) (p : Fin 24) (v : Nat) : Bool :=
  let x := s.port p
  vcGet x.tx.shSent v == vcGet x.tx.sent v && vcGet x.tx.shRetRcvd v == vcGet x.tx.retRcvd v &&
  (vcGet x.tx.avail v + vcGet x.tx.sent v) % 2 ^ 32 == (vcGet x.tx.pools v + vcGet x.tx.retRcvd v) % 2 ^ 32 &&
  vcGet x.rx.shRcvd v == vcGet x.rx.rcvd v && vcGet x.rx.shRetSent v == vcGet x.rx.retSent v &&
  slotsHeld s p v + vcGet x.rx.due v + vcGet x.rx.retSent v == vcGet x.rx.rcvd v &&
  decide (vcGet x.rx.rcvd v - vcGet x.rx.retSent v ≤ vcGet x.rx.pools v)

/-- R191, R258: the credit identity of a CXL.mem class that the port sends, from the home's own counters. -/
def cxlHolds (c : CxlCredit) : Bool := c.shSent == c.sent && c.shRet == c.ret && c.avail + c.sent == c.pool + c.ret

/-- R191, R258: the credit identity of a CXL.mem class that the port receives, with the messages that it holds. -/
def cxlReceives (c : CxlCredit) (held : Nat) : Bool :=
  c.shSent == c.sent && c.shRet == c.ret && held + c.due + c.ret == c.sent && decide (c.sent - c.ret ≤ c.pool)

/-- R258: B of an M2S class of a port: 0 Req, 1 RwD, 2 BIRsp; and of an S2M class of an expander's: 3 NDR, 4 DRS. -/
def cxlHeld (s : State) (p : Fin 24) (cls : Nat) : Nat :=
  let x := s.port p
  let mine := fun (q : List RxMsg) (data : Bool) => q.countP fun m => m.epochs.port == x.epoch && opHasData m.op == data
  let answers := fun (data : Bool) => x.tx.cmpQ.countP fun m => m.credit && (m.reqOp / 8 % 2 == 1) == data
  let read := fun (m : MemIn) => (x.mem.outstanding.find? (·.tag == m.tag)).any (·.req.kind == 0)
  match cls with
  | 0 => mine x.reqQ false + mine x.wbQ false + answers false
  | 1 => mine x.reqQ true + mine x.wbQ true + answers true
  | 2 => mine x.rspQ false + x.cxl.heldBi.length
  | 3 => x.memQ.countP fun m => !(read m)
  | _ => x.memQ.countP read

/-- R257: the identities of a port. -/
def portIdentities (s : State) (p : Fin 24) : List Identity :=
  let c := (s.port p).cxl
  match personality s p with
  | .peerCxl2 | .peerCxl3 =>
    [(0x01, 0, cxlReceives c.m2sReq (cxlHeld s p 0)), (0x01, 1, cxlReceives c.m2sRwd (cxlHeld s p 1)), (0x01, 2, cxlHolds c.s2mBiSnp),
     (0x01, 3, cxlReceives c.m2sBiRsp (cxlHeld s p 2)), (0x01, 4, cxlHolds c.s2mNdr && cxlHolds c.s2mDrs)]
  | .memCxl =>
    [(0x01, 5, cxlHolds c.m2sReq && cxlHolds c.m2sRwd && cxlHolds c.m2sBiRsp && cxlReceives c.s2mNdr (cxlHeld s p 3) &&
      cxlReceives c.s2mDrs (cxlHeld s p 4) && cxlReceives c.s2mBiSnp 0)]
  | _ => (List.range 6).map fun v => (0x01, v, vcHolds s p v)

/-- R166: extents allocated, retired, and free, over the contributing ports, and their number. -/
def extentCounts (s : State) : Nat × Nat × Nat × Nat :=
  let on := s.pool.recs.filter fun r => (bxPort s r.bx).isSome
  let ports := (List.finRange 24).filter fun p => s.ports[p].mem.taken
  (on.countP (fun r => !r.retired) + (ports.map fun p => s.ports[p].mem.metaExt).sum, on.countP (·.retired), freeExtents s,
   (ports.map fun p => s.ports[p].mem.ek).sum)

/-- R257: the identities of the allocator. -/
def poolIdentities (s : State) : List Identity :=
  let n := extentCounts s
  let q := s.pool
  (0x04, 0, q.shAllocated == n.1 && q.shRetired == n.2.1 && q.shFree == n.2.2.1 && n.1 + n.2.1 + n.2.2.1 == n.2.2.2 &&
    (q.parts.all fun x => x.part != 0 || x.alloc == x.shAlloc)) ::
  (((q.parts.filter (·.part != 0)).mergeSort fun a b => a.part ≤ b.part).map fun x =>
    (0x04, x.part, x.alloc == x.shAlloc && decide (x.alloc ≤ cfgGet s keyQuota x.part)))

/-! ## Audits -/

/-- The identities an auditor evaluates. -/
def identitiesOf (s : State) : Auditor → List Identity
  | .slice k => sliceIdentities s k
  | .port p => portIdentities s p
  | .allocator => poolIdentities s

/-- The identities an auditor found failing last. -/
def failingOf (s : State) : Auditor → List (Nat × Nat)
  | .slice k => (s.slc k).failing
  | .port p => (s.port p).failing
  | .allocator => s.pool.failing

/-- The failing identities of an auditor noted. -/
def setFailing (s : State) (l : List (Nat × Nat)) : Auditor → State
  | .slice k => s.updSlc k fun sl => { sl with failing := l }
  | .port p => s.updPort p fun x => { x with failing := l }
  | .allocator => s.updPool fun q => { q with failing := l }

/-- R263: the fault code of an identity of an auditor. -/
def auditCode (ident sub : Nat) : Auditor → Nat
  | .slice k => faultCode ident 0 k sub
  | .port p => faultCode ident 1 p sub
  | .allocator => faultCode ident 6 0 sub

/-- R257: an audit: an identity that fails, and did not at the last audit, is a conservation fault; the lowest code comes
first (R269). -/
def audit (who : Auditor) (s : State) : State :=
  let bad := ((identitiesOf s who).filter fun x => !x.2.2).map fun x => (x.1, x.2.1)
  let new := bad.filter fun x => !((failingOf s who).contains x)
  new.foldl (fun s x => contain s (auditCode x.1 x.2 who)) (setFailing s bad who)

/-- AUDIT (R257). -/
def execAudit (who : Auditor) (s : State) : Host.Outcome State Fault Refusal := 
  runCmd (fun s => settleFault s (audit who (match who with | .port p => wordRead s 0 p | _ => s))) s

/-! ## Census (R261) -/

/-- R261: the tally of a slice over the sets its walker has passed: valid, retired and free frames. -/
def frameTally (s : State) (k : Fin 16) (next : Nat) : Census :=
  let v := s.fuses.is144
  let passed := s.hbm.frames.filter fun x => sliceOfFrame v x.num == k.val && decide (setOfFrame v x.num < next)
  let a := passed.countP fun x => x.state == .present || x.state == .evicting
  let r := passed.countP fun x => x.state == .retired
  { next := next, present := a, free := next * 16 - a - r, retired := r }

/-- R261: a census walker of a slice recounts its next set; at the end of the walk the tally must equal the shadow counts. -/
def censusSlice (k : Fin 16) (s : State) : State :=
  let sets := setsPerSlice s.fuses.is144
  let pass := fun (s : State) =>
    let n := (s.slc k).census.next
    let s1 := (List.range 8).foldl (fun s j => hbmAccess s (tagAddr s.fuses.is144 k n + 64 * j) 0 false) s
    Except.ok (s1.updSlc k fun sl => { sl with census := frameTally s k (n + 1) })
  let s1 := runPass (inTurn s k 7) k .internalPass 0 pass
  let c := (s1.slc k).census
  if sets ≤ c.next then
    let h := (s1.slc k).shadow
    let s2 := s1.updSlc k fun sl => { sl with census := {} }
    if c.present == h.frValid && c.retired == h.frRetired then s2 else contain s2 (faultCode 0x03 0 k 0)
  else s1

/-- R261: the tally of the allocator over the backing extents its walker has passed. -/
def extentTally (s : State) (next : Nat) : Census :=
  let on := s.pool.recs.filter fun r => decide (r.bx < next) && (bxPort s r.bx).isSome
  let ports := (List.finRange 24).filter fun p => s.ports[p].mem.taken
  let own := (ports.map fun p => let m := s.ports[p].mem; min m.metaExt (next - (m.bxBase + m.ek - m.metaExt))).sum
  let total := (ports.map fun p => let m := s.ports[p].mem; min m.ek (next - m.bxBase)).sum
  let a := on.countP (fun r => !r.retired) + own
  let r := on.countP (·.retired)
  { next := next, present := a, retired := r, free := total - a - r }

/-- R261: the census walker of the allocator recounts the next backing extent. -/
def censusPool (s : State) : State :=
  let n := s.pool.census.next
  let stop := ((List.finRange 24).map fun p => if s.ports[p].mem.taken then s.ports[p].mem.bxBase + s.ports[p].mem.ek else 0).foldl max 0
  let s1 := (hbmAccess s (0x270000000 + n * 8 / 64 * 64) 0 false).updPool fun q => { q with census := extentTally s (n + 1) }
  if stop ≤ n + 1 then
    let c := s1.pool.census
    let s2 := s1.updPool fun q => { q with census := {} }
    if c.present == s.pool.shAllocated && c.retired == s.pool.shRetired && c.free == s.pool.shFree then s2
    else contain s2 (faultCode 0x04 6 0 0)
  else s1

/-- CENSUS_STEP (R261): the next set or extent of a walker; ports have none. -/
def censusStep (who : Auditor) (s : State) : State :=
  match who with
  | .slice k => if s.hbm.initDone then censusSlice k s else s
  | .port _ => s
  | .allocator => if s.pool.rebuilt then censusPool s else s

/-- CENSUS_STEP (R261). -/
def execCensusStep (who : Auditor) (s : State) : Host.Outcome State Fault Refusal := runCmd (fun s => settleFault s (censusStep who s)) s

/-! ## Triplicated words (R239) -/

/-- R239: the sweep reads every triplicated word; upsets that strike after it stand until the word is read or written. -/
def tmrSweep (strike : List TmrUpset) (s : State) : State :=
  let s1 := wordsRead s (s.prot.upsets.map fun u => (u.word, u.index))
  { s1 with prot := { s1.prot with upsets := strike } }

/-- TMR_SWEEP (R239). -/
def execTmrSweep (upsets : List TmrUpset) (s : State) : Host.Outcome State Fault Refusal :=
  runCmd (fun s => settleFault s (tmrSweep upsets s)) s

end Sys2Proof.Machine
end

