-- ==== Sys2Proof/Machine/Ledger.lean ====
section
/-! DEFINITION. The life ledger while the device runs: checkpoints (R368), stalagmite counters (R371, R373), the calendar
record (R371) and the aging monitors (R376, R377). -/

namespace Sys2Proof.Machine
open Sys2Proof

/-! ## Record bodies (Table LED-4) -/

/-- A list cut into pieces of n; n pieces at most as many as the list has elements. -/
def chunksOf {α : Type} (n : Nat) : Nat → List α → List (List α)
  | 0, _ => []
  | fuel + 1, xs => if xs.isEmpty then [] else xs.take n :: chunksOf n fuel (xs.drop n)

/-- COUNTER: entries of 12 B. -/
def counterBody (cs : List (Nat × Nat × Nat)) : List Byte := cs.flatMap fun c => leBytes 2 c.1 ++ leBytes 2 c.2.1 ++ leBytes 8 c.2.2

/-- RETIRE_EXTENT: a count and entries of 12 B. -/
def extentsBody (rs : List (Nat × Nat × Nat × Nat × Nat × Nat)) : List Byte :=
  leBytes 1 rs.length ++ rs.flatMap fun r =>
    leBytes 1 r.2.1 ++ leBytes 3 0 ++ leBytes 4 r.2.2.1 ++ leBytes 2 r.2.2.2.1 ++ leBytes 2 r.2.2.2.2.1 ++ leBytes 2 r.2.2.2.2.2

/-- RETIRE_FRAME: a count and frame numbers of 4 B. -/
def framesBody (rs : List (Nat × Nat × Nat × Nat × Nat × Nat)) : List Byte :=
  leBytes 1 rs.length ++ rs.flatMap fun r => leBytes 4 r.2.1

/-- CALENDAR: seconds, ns, and whether CALENDAR_SET wrote it. -/
def calendarBody (sec ns : Nat) (set : Bool) : List Byte := leBytes 8 sec ++ leBytes 4 ns ++ leBytes 1 (b2n set)

/-- AGING: the index of the first monitor, and up to 6 entries of 6 B. -/
def agingBody (s : State) (first : Nat) (is : List Nat) : List Byte :=
  leBytes 1 first ++ is.flatMap fun i =>
    let m := s.led.aging.toList.getD i {}
    leBytes 4 m.baseline ++ leBytes 2 m.margin

/-- SECURITY: SVN_MIN and BOOT_PREF. -/
def securityBody (r : Root) : List Byte := leBytes 4 r.svnMin ++ leBytes 1 r.bootPref

/-- COMMIT: COMMIT_ID, DECISION (0 commit), acknowledged-device mask. -/
def commitBody (c : Nat × Bool × List Nat) : List Byte :=
  leBytes 2 c.1 ++ leBytes 1 (b2n (!c.2.1)) ++ leBytes 8 ((c.2.2.map (2 ^ ·)).sum)

/-- The AGING records of every monitor: class and body. -/
def agingRecords (s : State) : List (Nat × List Byte) :=
  (chunksOf 6 6 (List.range 32)).map fun is => (9, agingBody s (is.headD 0) is)

/-! ## Checkpoints (R368) -/

/-- R368 step 1: the whole ledger state as records: class and body. Classes of which the ledger keeps the latest record are
copied from the log. -/
def ledgerState (s : State) : List (Nat × List Byte) :=
  let root := (rootValue s).getD {}
  let kind := fun (k : Nat) => s.led.retirements.filter fun r => r.1 == k
  let latest := fun (c : Nat) => ((s.led.log.find? fun r => r.cls == c && !r.checkpoint).map fun r => (c, r.body)).toList
  ((chunksOf 3 s.led.stal.length (s.led.stal.map fun x => (x.id, x.index, x.value))).map fun cs => (1, counterBody cs)) ++
  ((chunksOf 3 s.led.retirements.length (kind 0)).map fun rs => (2, extentsBody rs)) ++
  ((chunksOf 9 s.led.retirements.length (kind 1)).map fun rs => (3, framesBody rs)) ++
  ((kind 2).zipIdx.map fun r => (4, (retireBody r.1 r.2).2)) ++
  [(6, securityBody root), (7, leBytes 8 s.led.poolGen), (8, calendarBody s.led.lastCal.1 s.led.lastCal.2 false)] ++
  agingRecords s ++
  (s.led.containments.reverse.map fun c => (0x0A, leBytes 4 c.1 ++ leBytes 1 (b2n c.2.1) ++ leBytes 8 c.2.2.1 ++ leBytes 8 c.2.2.2.1)) ++
  [0x0B, 0x0C, 0x0D, 0x0E, 0x10].flatMap latest ++
  (s.led.commits.map fun c => (0x0F, commitBody c))

/-- R368: a checkpoint: the state as records, a CHECKPOINT_END, and the root moved to the checkpoint. -/
def checkpoint (s : State) : State :=
  if ledgerWritable s && decide (24576 ≤ s.led.sinceCkpt) then
    let slot := s.led.head
    let lseq := s.led.lseq
    let s1 := { s with led := { s.led with sinceCkpt := 0 } }
    let s2 := (ledgerState s).foldl (fun s r => ledgerAppend s r.1 r.2 true) s1
    let s3 := ledgerAppend s2 0x7F (leBytes 8 lseq)
    let s4 := rootWrite s3 fun r => { r with ckptSlot := slot, ckptLseq := lseq }
    { s4 with led := { s4.led with stal := s4.led.stal.map fun x => { x with written := x.value } } }
  else s

/-- LEDGER_CHECKPOINT (R368). -/
def execLedgerCheckpoint (s : State) : Host.Outcome State Fault Refusal := runCmd (fun s => settleFault s (checkpoint (wordRead s 4 0))) s

/-! ## Counters and calendar -/

/-- R371: a stalagmite counter that has changed since it was written is written. -/
def stalFlush (id index : Nat) (s : State) : State :=
  match s.led.stal.find? fun x => x.id == id && x.index == index with
  | some x =>
    if ledgerWritable s && decide (x.written < x.value) then
      let s1 := ledgerAppend s 1 (counterBody [(id, index, x.value)])
      { s1 with led := { s1.led with stal := s1.led.stal.map fun y => if y.id == id && y.index == index then { y with written := y.value } else y } }
    else s
  | none => s

/-- STALAGMITE_FLUSH (R371). -/
def execStalagmiteFlush (id : Nat) (index : Nat) (s : State) : Host.Outcome State Fault Refusal := runCmd (stalFlush id index) s

/-- R371: the calendar written to the ledger, as the last-known calendar. -/
def writeCalendar (set : Bool) (s : State) : State :=
  if s.cal.valid then
    ledgerRecord { s with led := { s.led with lastCal := (s.cal.sec, s.cal.ns) } } 8 (calendarBody s.cal.sec s.cal.ns set)
  else s

/-- CALENDAR_LEDGER_WRITE (R371). -/
def execCalendarLedgerWrite (s : State) : Host.Outcome State Fault Refusal :=
  runCmd (fun s => if ledgerWritable s then writeCalendar false s else s) s

/-- POWER_ON_TIME_TICK (R373): a second with PWRGOOD asserted. -/
def execPowerOnTimeTick (s : State) : Host.Outcome State Fault Refusal :=
  runCmd (fun s => if s.clk.pwrgood then stalAdd s 1 0 1 else s) s

/-! ## Aging monitors (R376, R377) -/

/-- R377: M of a ratio and its baseline, both in 1e-6: 1,000 × (1 − D ÷ 0.05), rounded to the nearest and clamped. -/
def marginOf (ratio baseline : Nat) : Nat :=
  if 20000 * ratio < 19000 * baseline then 0
  else min 1000 ((2 * (20000 * ratio - 19000 * baseline) + baseline) / (2 * baseline))

/-- R376: a monitor sampled; a ratio of 0 stands for a sample that failed, whose M is left open. -/
def sampleOne (s : State) (i : Fin 32) (ratio : Nat) : State :=
  let m := s.led.aging[i]
  let now := stalGet s 1 0
  if ratio = 0 then
    let (n, s1) := freshNat s
    { s1 with led := { s1.led with aging := s1.led.aging.set i { m with margin := 2 ^ 15 + n % 1001, sampledAt := now } } }
  else
    let c := marginOf ratio m.baseline
    { s with led := { s.led with aging := s.led.aging.set i { m with margin := c, lowest := min m.lowest c, sampledAt := now } } }

/-- R376: every monitor is sampled and recorded; a SELFTEST of the monitors that waits completes with their codes. -/
def agingSample (ratios : List Nat) (s : State) : State :=
  let s1 := (List.finRange 32).foldl (fun s i => sampleOne s i (ratios.getD i.val 0)) s
  let s2 := (agingRecords s1).foldl (fun s r => ledgerRecord s r.1 r.2) s1
  endWorks s2 0x0910 (replyOk (s2.led.aging.toList.flatMap fun m => leBytes 2 m.margin))

/-- AGING_SAMPLE (R376, R377). -/
def execAgingSample (ratios : List Nat) (s : State) : Host.Outcome State Fault Refusal := runCmd (agingSample ratios) s

end Sys2Proof.Machine
end

