-- ==== Sys2Proof/Machine/Ring.lean ====
section
/-! DEFINITION. The domain ring (R206, R207): formation (R208, R209), domain time (R211), STATE and FAULT frames (R217), the
notes of a secondary (R279), and the answers of a relay (R215). -/

namespace Sys2Proof.Machine
open Sys2Proof

/-! ## Frames (R207) -/

/-- R421: the device drives FAULT_N. -/
def faultN (s : State) : Bool := s.cons.contained || s.mgmt.fault

/-- R204: the device takes part in a ring: RING_EN, valid straps, and no reset holds. -/
def onRing (s : State) : Bool := ringEn s && !s.clk.strapInvalid && s.clk.reset.isNone

/-- R206: the CRC of a received frame holds. -/
def frameGood (typ : Nat) (f : RingFrame) : Bool :=
  decide (f.payload.length ≤ 240) && (match f.crc with | none => true | some c => c == crc32 (frameBytes typ f.dst f.src f.hops f.payload))

/-- R207: a frame forwarded: HOPS incremented, its CRC recomputed over the payload given. -/
def forward (s : State) (typ : Nat) (f : RingFrame) (payload : List Byte) : State :=
  let h := (f.hops + 1) % 256
  s.emit (.ring typ f.dst f.src h payload (crc32 (frameBytes typ f.dst f.src h payload)))

/-- R207: the residence of a frame in a device, in 1/16 ns: the frame time of 4 ns a character and at most 48 ns, which is
free. -/
def residence (s : State) (len : Nat) : Nat × State :=
  let (x, s1) := freshNat s
  ((len + 12) * 64 + x % 769, s1)

/-- R207: what a device does with a received frame: a failing frame is counted and discarded, its own broadcast removed, another taken and
forwarded, one for itself taken, any other forwarded. -/
def ringIn (s : State) (typ : Nat) (f : RingFrame) (take : State → State) : State :=
  if !(onRing s) then s
  else if !(frameGood typ f) then { s with dom := { s.dom with ringCrc := s.dom.ringCrc + 1 } }
  else if f.dst = 0xFF then (if s.dom.index == some f.src then s else forward (take s) typ f f.payload)
  else if s.dom.index == some f.dst then take s
  else forward s typ f f.payload

/-- A DOMAIN notification (Table MBX-5). -/
def domainEvent (s : State) (ev : Nat) : State := notify s { ntype := 7, arg := ev + (s.dom.n % 64) * 2 ^ 8 }

/-! ## Formation (R208, R209) -/

/-- R208: a FORM_ID that the device has not issued, at or after a number. -/
def newFormId (ids : List Nat) (x : Nat) : Nat := (((List.range 65536).find? fun i => !(ids.contains ((x + i) % 65536))).getD 0 + x) % 65536

/-- R208 step 1: FORM sent under a new FORM_ID. The spec gives no number for it, so it is a free value that the device has not issued
before (assumption 84). -/
def sendForm (s0 : State) : State :=
  let (x, s) := freshNat s0
  let id := newFormId s.dom.formIds x
  ringSend { s with dom := { s.dom with formId := id, formIds := s.dom.formIds ++ [id], formSent := s.clk.half, forming := true, index := some 0 } } 1 0xFE
    (leBytes 1 1 ++ leBytes 2 id ++ leBytes 4 0)

/-- R210: a re-formation of a ring that has been formed before is recorded. -/
def reformed (s : State) (was : Bool) : State :=
  let s1 := if was then logClass s 0x40 5 0 none none none 1 else s
  if isPrimary s then domainEvent s1 2 else s1

/-- Table DOM-3: the payload of a TIME_SYNC of the primary. -/
def timePayload (s : State) : List Byte := leBytes 8 (domNs s) ++ leBytes 4 0 ++ leBytes 4 s.dom.linkDelay

/-- Table MBX-11: the payload of a COMMIT_DECIDE; APPLY_AT of a decision taken from the ledger after a reset of the primary is
its domain time now. -/
def decidePayload (s : State) (id : Nat) (commit : Bool) : List Byte :=
  let at_ := match s.dom.vote with | some v => if v.id = id then v.applyAt else domNs s | none => domNs s
  leBytes 2 id ++ leBytes 1 (b2n !commit) ++ leBytes 5 0 ++ leBytes 8 at_

/-- R294: the decisions not fully acknowledged sent again. -/
def sendDecisions (s : State) : State :=
  s.led.commits.foldl (fun s c => ringSend s 0x22 0xFF (decidePayload s c.1 c.2.1)) s

/-- R328: at each FORM_DONE the derived unit takes slot mode for 1 to 15 devices and histogram mode for 16 to 64; a change of
mode clears every accumulator. -/
def deriveMode (s : State) : State :=
  let m := decide (16 ≤ s.dom.n)
  if m = s.obs.histMode then s else { s with obs := { s.obs with histMode := m, hist := [], slotPart := [], slotSub := [] } }

/-- R208 step 3: FORM has returned to the primary. -/
def formReturned (s : State) (next res : Nat) : State :=
  let was := s.dom.formed
  let rtt := (s.clk.half - s.dom.formSent) * 8
  let d := s.dom
  let s1 := deriveMode <| stepEnd { s with dom := { d with
    n := next, linkDelay := (rtt - res) / max 1 next, formed := true, down := false, forming := false,
    time := if d.timeRun then d.time else 0, timeRun := true, timeValid := true, indexConflict := false, dualPrimary := false } } 11
  let s2 := ringSend s1 2 0xFF (leBytes 1 next ++ leBytes 2 d.formId ++ leBytes 4 s1.dom.linkDelay)
  let s3 := ringSend s2 3 0xFF (timePayload s2)
  sendDecisions (endWorks (reformed s3 was) 0x0C00 (replyOk (leBytes 1 next)))

/-- R208 step 2: a secondary takes the index offered and forwards FORM. -/
def formOffered (s : State) (f : RingFrame) (next id res : Nat) : State :=
  let (own, s1) := residence s f.payload.length
  forward { s1 with dom := { s1.dom with index := some next, formId := id } } 1 f
    (leBytes 1 (next + 1) ++ leBytes 2 id ++ leBytes 4 (res + own))

/-- FORM (R208, R209). -/
def formFrame (f : RingFrame) (s : State) : State :=
  let next := leAt f.payload 0 1
  let id := leAt f.payload 1 2
  let res := leAt f.payload 3 4
  if !(onRing s) then s
  else if !(frameGood 1 f) then { s with dom := { s.dom with ringCrc := s.dom.ringCrc + 1 } }
  else if isPrimary s then
    if s.dom.forming && id == s.dom.formId then formReturned s next res
    else if s.dom.formIds.contains id then s
    else domainEvent { s with dom := { s.dom with dualPrimary := true } } 4
  else if !(s.clk.stepDone.contains 10) || next == 64 then s
  else match s.dom.index with
    | some i => if i = next then formOffered s f next id res else { s with dom := { s.dom with indexConflict := true } }
    | none => formOffered s f next id res

/-- FORM (R208). -/
def execForm (frame : RingFrame) (s : State) : Host.Outcome State Fault Refusal := runCmd (formFrame frame) s

/-- FORM_TIMEOUT (R208, R209): the primary repeats formation. Whether the FORM met a device that holds another index, formed with it before
or before the primary's reset, the spec gives it no frame to learn: a free value. -/
def formTimeout (s : State) : State :=
  if onRing s && isPrimary s && s.dom.forming then
    let (x, s1) := freshNat s
    let conflict := x % 2 == 1
    let s2 := if conflict && !s.dom.indexConflict then domainEvent { s1 with dom := { s1.dom with indexConflict := true } } 3 else s1
    sendForm s2
  else s

/-- FORM_TIMEOUT (R208). -/
def execFormTimeout (s : State) : Host.Outcome State Fault Refusal := runCmd formTimeout s

/-- R279: one note sent in a RELAY_NOTE frame. -/
def sendNote (s : State) (words : List Nat) : State :=
  let d := s.dom
  ringSend { s with dom := { d with noteSeq := (d.noteSeq + 1) % 65536, notesLost := 0 } } 0x12 0
    (leBytes 2 d.noteSeq ++ leBytes 4 d.notesLost ++ leBytes 1 words.length ++ leBytes 1 0 ++ words.flatMap (leBytes 8))

/-- R279: the notes held while the ring was down are sent in order. -/
def sendHeldNotes (s : State) : State :=
  s.dom.notes.foldl (fun s n => sendNote s n.words) { s with dom := { s.dom with notes := [] } }

/-- FORM_DONE (R208 step 4). -/
def formDone (f : RingFrame) (s : State) : State :=
  ringIn s 2 f fun s =>
    if !(isPrimary s) && leAt f.payload 1 2 == s.dom.formId && s.dom.index.isSome then
      let was := s.dom.formed
      let s1 := deriveMode <| stepEnd { s with dom := { s.dom with
        n := leAt f.payload 0 1, linkDelay := leAt f.payload 3 4, formed := true, down := false, indexConflict := false } } 11
      sendHeldNotes (reformed s1 was)
    else s

/-- FORM_DONE (R208). -/
def execFormDone (frame : RingFrame) (s : State) : Host.Outcome State Fault Refusal := runCmd (formDone frame) s

/-! ## Domain time (R211) -/

/-- R211: a device follows the primary's time, v in 1/2 ns: it steps forward, runs at half rate, or slews. -/
def followTime (s : State) (v : Nat) : State :=
  let d := s.dom
  let d1 := { d with timeValid := true, timeRun := true }
  if !d.timeRun then { s with dom := { d1 with time := max d.time v, halfRate := 0, slew := 0 } }
  else if d.time + 2000 < v then { s with dom := { d1 with time := v, halfRate := 0, slew := 0 } }
  else if v + 2000 < d.time then { s with dom := { d1 with halfRate := d.time - v, slew := 0 } }
  else { s with dom := { d1 with halfRate := 0, slew := (v : Int) - d.time } }

/-- TIME_SYNC (R211): a secondary follows it, and forwards it with its residence added. -/
def timeSync (f : RingFrame) (s : State) : State :=
  if !(onRing s) then s
  else if !(frameGood 3 f) then { s with dom := { s.dom with ringCrc := s.dom.ringCrc + 1 } }
  else if isPrimary s || s.dom.index == some f.src then s
  else
    let res := leAt f.payload 8 4
    let k := ownIndex s
    let s1 := if s.dom.formed then followTime s (2 * leAt f.payload 0 8 + (res + k * s.dom.linkDelay) / 8) else s
    let (own, s2) := residence s1 f.payload.length
    forward s2 3 f (f.payload.take 8 ++ leBytes 4 (res + own) ++ f.payload.drop 12)

/-- TIME_SYNC (R211). -/
def execTimeSync (frame : RingFrame) (s : State) : Host.Outcome State Fault Refusal := runCmd (timeSync frame) s

/-- TIME_SYNC_SEND (R211): the primary of a formed ring broadcasts TIME_SYNC. -/
def timeSyncSend (s : State) : State :=
  if onRing s && isPrimary s && s.dom.formed then ringSend s 3 0xFF (timePayload s) else s

/-- TIME_SYNC_SEND (R211). -/
def execTimeSyncSend (s : State) : Host.Outcome State Fault Refusal := runCmd timeSyncSend s

/-- DOMAIN_TIME_INVALID (R211). -/
def execDomainTimeInvalid (s : State) : Host.Outcome State Fault Refusal :=
  runCmd (fun s => if s.dom.down then { s with dom := { s.dom with timeValid := false } } else s) s

/-! ## STATE and FAULT (R217) -/

/-- A device of the domain as the primary knows it. -/
def peerOf (s : State) (d : Nat) : Peer := if h : d < 64 then s.dom.peers[d] else {}

/-- What the primary knows of a device changed. -/
def updPeer (s : State) (d : Nat) (f : Peer → Peer) : State :=
  if h : d < 64 then { s with dom := { s.dom with peers := s.dom.peers.set d (f s.dom.peers[d]) } } else s

/-- STATE (R217): the primary's view of a secondary. -/
def stateFrame (f : RingFrame) (s : State) : State :=
  ringIn s 4 f fun s =>
    let b := leAt f.payload 0 1
    if isPrimary s then
      updPeer s f.src fun p => { p with ready := bitOf b 0, faultN := bitOf b 1, contained := bitOf b 2, timeValid := bitOf b 3 }
    else s

/-- STATE_FRAME (R217). -/
def execStateFrame (frame : RingFrame) (s : State) : Host.Outcome State Fault Refusal := runCmd (stateFrame frame) s

/-- Table DOM-3: byte 0 of a STATE frame. -/
def stateByte (s : State) : Nat :=
  b2n s.clk.homeOwn + 2 * b2n (faultN s) + 4 * b2n s.cons.contained + 8 * b2n s.dom.timeValid

/-- STATE_SEND (R217): a secondary with an index sends STATE to the primary. -/
def stateSend (s : State) : State :=
  if onRing s && !(isPrimary s) && s.dom.index.isSome then ringSend s 4 0 (leBytes 1 (stateByte s)) else s

/-- STATE_SEND (R217). -/
def execStateSend (s : State) : Host.Outcome State Fault Refusal := runCmd stateSend s

/-- FAULT (R217): recorded as REMOTE_FAULT with the severity of the frame; the record is notified. -/
def faultFrame (f : RingFrame) (s : State) : State :=
  ringIn s 5 f fun s =>
    logError s { cls := 0x41, severity := leAt f.payload 0 1, srcKind := 5, src := f.src, detail := leAt f.payload 1 4 }

/-- FAULT_FRAME (R217). -/
def execFaultFrame (frame : RingFrame) (s : State) : Host.Outcome State Fault Refusal := runCmd (faultFrame frame) s

/-! ## Notes and relay answers (R279, R215) -/

/-- RELAY_NOTE (R279): a secondary's packet joins the primary's events; losses it reports, and gaps in NOTE_SEQ, are added to
NQ_LOST. -/
def relayNote (f : RingFrame) (s : State) : State :=
  ringIn s 0x12 f fun s =>
    if isPrimary s then
      let seq := leAt f.payload 0 2
      let gap := (seq + 65536 - (peerOf s f.src).noteSeq) % 65536
      let s1 := updPeer s f.src fun p => { p with noteSeq := (seq + 1) % 65536 }
      let s2 := { s1 with mgmt := { s1.mgmt with nqLost := s1.mgmt.nqLost + leAt f.payload 2 4 + gap } }
      let w0 := leAt f.payload 8 8
      notify s2 { ntype := bits w0 7 0, arg := bits w0 61 32,
                  word := if 2 ≤ leAt f.payload 6 1 then some (bits (leAt f.payload 16 8) 61 0) else none }
    else s

/-- RELAY_NOTE (R279). -/
def execRelayNote (frame : RingFrame) (s : State) : Host.Outcome State Fault Refusal := runCmd (relayNote frame) s

/-- RELAY_RSP (R215): the fragments of a relayed response; the last completes the doorbell. -/
def relayRsp (f : RingFrame) (s : State) : State :=
  ringIn s 0x11 f fun s =>
    match s.dom.relay with
    | none => s
    | some r =>
      if leAt f.payload 0 2 = r.id ∧ f.src = r.target ∧ leAt f.payload 2 2 = r.got.length then
        let got := r.got ++ f.payload.drop 8
        if bitOf (leAt f.payload 6 1) 0 then
          respondPrimary { s with dom := { s.dom with relay := none } } got (leAt got 2 1)
        else { s with dom := { s.dom with relay := some { r with got := got } } }
      else s

/-- RELAY_RSP (R215). -/
def execRelayRsp (frame : RingFrame) (s : State) : Host.Outcome State Fault Refusal := runCmd (relayRsp frame) s

/-- R215: a relay ends with DOMAIN_UNREACHABLE. -/
def relayFails (s : State) : State :=
  match s.dom.relay with
  | none => s
  | some r => respond { s with dom := { s.dom with relay := none } } .primary r.op r.cookie 0 (ownIndex s) { status := stUnreachable }

/-- RELAY_TIMEOUT (R215): on the primary the relay fails; on the target a command with a fragment missing is dropped. -/
def execRelayTimeout (s : State) : Host.Outcome State Fault Refusal :=
  runCmd (fun s => if isPrimary s then relayFails s else { s with dom := { s.dom with relayIn := [] } }) s

end Sys2Proof.Machine
end

