-- ==== Sys2Proof/Machine/TrainSets.lean ====
section
/-! DEFINITION. What training rests on: keys and capabilities (R31, R394), training sets (R30), and the entries to DETECT and
DISCOVERY (R29, R57). -/

namespace Sys2Proof.Machine
open Sys2Proof

/-! ## Keys and capabilities (R31, R394) -/

/-- R394: the port holds a usable key. -/
def holdsKeys (e : PortEnc) : Bool := [e.tx0, e.tx1, e.rx0, e.rx1].any fun k => match k with | some x => x.usable | none => false

/-- R394: phase 0 is usable in both directions. -/
def phase0Usable (e : PortEnc) : Bool := [e.tx0, e.rx0].all fun k => match k with | some x => x.usable | none => false

/-- R31, R394: GEN_CAP of a port at DETECT. -/
def ownCap (s : State) (p : Fin 24) : BitVec 3 := if holdsKeys (s.port p).enc then 4 else BitVec.ofNat 3 (cfgGet s keyGenCap p)

/-- R53, R394: a committed change of LNK_ENC_ALG takes effect on a port whose link has not trained; its keys are erased. -/
def algTakes (s : State) (p : Fin 24) : State :=
  let alg := cfgGet s keyEncAlg p
  let x := s.port p
  let down := match x.link.state with | .disabled | .detect => true | _ => false
  if down && alg != x.enc.algInForce then s.updPort p fun x => { x with enc := { algInForce := alg } } else s

/-- The generations both sides advertise, highest first. -/
def sharedGens (a b : BitVec 3) : List Nat := [3, 2, 1].filter fun g => (a &&& b).getLsbD (g - 1)

/-- A generation cleared from a GEN_CAP. -/
def dropGen (c : BitVec 3) (g : Nat) : BitVec 3 := c &&& ~~~ ((1 : BitVec 3) <<< (g - 1))

/-- R32: the lanes a port trains on, of those that lock. -/
def widthMask (m : BitVec 4) : BitVec 4 :=
  if m = 15 then 15
  else if m &&& 3 = 3 then 3
  else if m &&& 12 = 12 then 12
  else if m.getLsbD 0 then 1 else if m.getLsbD 1 then 2 else if m.getLsbD 2 then 4 else if m.getLsbD 3 then 8 else 0

/-- The lanes of a mask. -/
def lanesOf (m : BitVec 4) : List (Fin 4) := (List.finRange 4).filter fun i => m.getLsbD i

/-! ## Training sets (R30) -/

/-- A byte of a training set. -/
def tsByte (ts : List Byte) (i : Nat) : Nat := leAt ts i 1

/-- R30: a training set of a type whose CRC holds. -/
def tsGood (ts : List Byte) (typ : Nat) : Bool :=
  ts.length == 32 && ts.take 4 == [0x3C, 0xA5, 0x5A, 0xC3] && tsByte ts 4 == typ && leAt ts 30 2 == crc16 ((ts.drop 4).take 26)

/-- R30: the fields that are the same on every lane. -/
def tsCommon (ts : List Byte) : List Byte := (ts.drop 6).take 4 ++ (ts.drop 13).take 3

/-- R31, R394: GEN_CAP a port advertises: only OLK3 while it holds usable keys. -/
def advCap (x : Port) : BitVec 3 := if holdsKeys x.enc then x.link.genCap &&& 4 else x.link.genCap

/-- R29, R31: the generation the home proposes, or has chosen. -/
def genSel (x : Port) : Nat := if x.link.gen = 0 then (sharedGens (advCap x) x.link.partnerCap).headD 0 else x.link.gen

/-- R30, R33: the training set a port sends on a lane. -/
def tsOut (s : State) (p : Fin 24) (typ : Nat) (lane : Fin 4) : List Byte :=
  let x := (s.port p).link
  let side := 1 + (if isMem s p then 4 else 0) + (if phase0Usable (s.port p).enc && personality s p == .peerOlk then 8 else 0)
  let y := x.lanes[lane]
  let eq := if typ = 3 then leBytes 1 y.askPreset ++ leBytes 1 y.askCmd ++ leBytes 1 (y.status + (if y.ownDone then 4 else 0)) else [0xFF, 0, 0]
  let eseq := if typ = 4 && x.state == .retrain then (s.port p).rx.eseq else 0
  let b := leBytes 1 typ ++ leBytes 1 (if typ = 1 then 0xFF else lane.val) ++ leBytes 1 (advCap (s.port p)).toNat ++
    leBytes 1 (if typ = 1 then 0 else genSel (s.port p)) ++ leBytes 1 x.laneMask.toNat ++ leBytes 1 side ++ eq ++
    leBytes 2 eseq ++ leBytes 1 p.val ++ List.replicate 14 0
  [0x3C, 0xA5, 0x5A, 0xC3] ++ b ++ leBytes 2 (crc16 b)

/-- Training sets of a type sent on every active lane; one stands for the sets repeated in the state. -/
def sendTs (s : State) (p : Fin 24) (typ : Nat) : State :=
  (lanesOf (s.port p).link.laneMask).foldl (fun s l => s.emit (.ts p (tsOut s p typ l))) s

/-- The training state of a port changed. -/
def updLink (s : State) (p : Fin 24) (f : PortLink → PortLink) : State := s.updPort p fun x => { x with link := f x.link }

/-- One lane of a port changed. -/
def updLane (s : State) (p : Fin 24) (l : Fin 4) (f : LaneEq → LaneEq) : State :=
  updLink s p fun x => { x with lanes := x.lanes.set l (f x.lanes[l]) }

/-- A new state of training: the counts of every lane begin again. -/
def enterState (s : State) (p : Fin 24) (st : LinkState) : State :=
  updLink s p fun x => { x with state := st, partnerSet := [], row := 0, passed := false, verifyRun := 0, verifyFixed := 0,
                                lanes := x.lanes.map fun l => { l with count := 0, done := false, seen := [], locked := false } }

/-- R30: the fields of a training set that may not differ between lanes: all but LANE, and in TS_EQ the equalisation fields. -/
def tsFields (ts : List Byte) : List Byte :=
  (ts.drop 4).take 1 ++ (ts.drop 6).take 4 ++ (if tsByte ts 4 = 3 then [] else (ts.drop 10).take 3) ++ (ts.drop 13).take 17

/-- R30: the training set of a lane differs from one of the same type on another lane of the set being received. -/
def tsDiffers (x : PortLink) (l : Fin 4) (ts : List Byte) : Bool :=
  !(x.row.getLsbD l) && (lanesOf x.row).any fun i => x.lanes[i].seen != tsFields ts && x.lanes[i].seen.take 1 == (ts.drop 4).take 1

/-- R30: a training set taken on its lane and counted, or ignored when its fields differ between lanes. A lane that is heard again
begins the next set; one whose own fields change begins its count of consecutive matching sets again. -/
def takeTs (s : State) (p : Fin 24) (l : Fin 4) (ts : List Byte) : Option State :=
  let x := (s.port p).link
  if tsDiffers x l ts then none
  else
    let one : BitVec 4 := (1 : BitVec 4) <<< l.val
    let s1 := updLink s p fun y => { y with partnerSet := tsCommon ts, row := if y.row.getLsbD l then one else y.row ||| one }
    some (updLane s1 p l fun y => { y with seen := tsFields ts, count := if y.seen == tsFields ts then y.count + 1 else 1 })

/-- Every lane of a mask has counted n training sets. -/
def lanesCounted (x : PortLink) (m : BitVec 4) (n : Nat) : Bool := m != 0 && (lanesOf m).all fun l => decide (n ≤ x.lanes[l].count)

/-! ## DETECT and DISCOVERY -/

/-- R29, R31: training fails: the port returns to DETECT with its keys. -/
def toDetect (s : State) (p : Fin 24) : State :=
  let x := s.port p
  (clearLink s p .detect).updPort p fun y => { y with enc := { x.enc with on := false }, link := { y.link with waitKeys := x.link.waitKeys } }

/-- R394: a port that holds usable keys and cannot train at OLK3, or whose partner does not encrypt, returns to DETECT with a
MAC_FAIL record. -/
def failTrain (s : State) (p : Fin 24) : State :=
  toDetect (if holdsKeys (s.port p).enc then logClass s 0x42 1 p else s) p

/-- R29: DISCOVERY begins on the lanes of a mask. -/
def beginDiscovery (s : State) (p : Fin 24) (lanes : BitVec 4) : State :=
  sendTs (updLink (enterState s p .discovery) p fun x => { x with genCap := ownCap s p, gen := 0, laneMask := lanes, waitKeys := false }) p 1

/-- R57, R394: a port that has left MAINT trains afresh from DISCOVERY, on all four lanes (assumption 72); one that waits for keys
waits in DETECT. -/
def afterMaint (s : State) (p : Fin 24) : State :=
  if (s.port p).link.waitKeys && !(phase0Usable (s.port p).enc) then updLink (enterState s p .detect) p fun x => { x with gen := 0, laneMask := 0 }
  else beginDiscovery s p 15

end Sys2Proof.Machine
end

