-- ==== Sys2Proof/Machine/Commit.lean ====
section
/-! DEFINITION. Configuration transactions: validation (R288, Table MBX-8), the drain of disruptive keys, the commit window and
the follow-up (R289, R290), rollback (R291), and the domain commit (R292 to R295). -/

namespace Sys2Proof.Machine
open Sys2Proof

/-! ## Validation (R288) -/

/-- What validation finds: DETAIL, key and index. -/
abbrev Invalid := Nat × Nat × Nat

/-- The state with staged values in force. -/
def withStaged (s : State) (staged : List CfgEnt) : State := { s with mgmt := { s.mgmt with cfg := staged.foldl cfgPut s.mgmt.cfg } }

/-- R219: the agent IDs bound to a port. -/
def portIds (s : State) (p : Nat) : List Nat := (List.range 256).filter fun a => bindRole s a != 0 && cfgGet s keyBind a % 32 == p

/-- The personality of a port by number; OFF beyond the ports. -/
def persOf (s : State) (p : Nat) : Personality := if p < 24 then personalityOf (cfgGet s keyPersonality p) else .off

/-- A peer personality (R20). -/
def peerPers (x : Personality) : Bool := match x with | .peerOlk | .peerCxl2 | .peerCxl3 => true | _ => false

/-- A memory personality (R20). -/
def memPers (x : Personality) : Bool := match x with | .memOlk | .memCxl => true | _ => false

/-- R20: the port at which a limit on personalities is first exceeded. -/
def tooManyPorts (n : State) : Option Invalid :=
  let peers := (List.range 24).filter fun p => peerPers (persOf n p)
  let mems := (List.range 24).filter fun p => memPers (persOf n p)
  let excess := (peers.drop 20).take 1 ++ (mems.drop 12).take 1
  match excess with
  | [] => none
  | x :: xs => some (1, keyPersonality, xs.foldl min x)

/-- R220: the port holds allocated extents of a partition other than 0. -/
def holdsExtents (s : State) (p : Nat) : Bool :=
  s.pool.recs.any fun r => !r.retired && r.part != 0 && (match bxPort s r.bx with | some (q, _) => q.val == p | none => false)

/-- R220: a memory port that holds extents changes its personality. -/
def portHolds (s n : State) : Option Invalid :=
  ((List.range 24).find? fun p => persOf s p != persOf n p && memPers (persOf s p) && holdsExtents s p).map fun p => (2, keyPersonality, p)

/-- R219: the binding of an agent ID is not permitted. -/
def bindBad (n : State) (a : Nat) : Bool :=
  let role := bindRole n a
  let port := cfgGet n keyBind a % 32
  if role = 0 then port != 31
  else a == 255 || port == 31 || (role == 1 && decide (64 ≤ a)) || (role == 2 && decide (a < 64)) || !(peerPers (persOf n port)) ||
    (persOf n port == .peerOlk && decide (8 < ((portIds n port).filter (· ≤ a)).length))

/-- R219, R23. -/
def bindInvalid (n : State) : Option Invalid := ((List.range 256).find? (bindBad n)).map fun a => (3, keyBind, a)

/-- R183: a partition exists: its window has a size. -/
def partExists (s : State) (p : Nat) : Bool := p != 0 && cfgGet s keyWinSize p != 0

/-- Partition numbers. -/
def partNumbers : List Nat := (List.range 256).drop 1

/-- Members of a partition. -/
def membersOf (s : State) (p : Nat) : List Nat := (List.range 256).filter fun a => bitOf (cfgGet s keyMembers p) a

/-- CXL2_EXCL of a partition. -/
def cxl2Excl (s : State) (p : Nat) : Bool := bitOf (cfgGet s keyFlags p) 3

/-- R193: an exclusive partition whose members break the rule. -/
def exclBad (n : State) (p : Nat) : Bool :=
  partExists n p && cxl2Excl n p &&
  (match membersOf n p with
   | [a] => !(bindRole n a == 0 || persOf n (cfgGet n keyBind a % 32) == .peerCxl2)
   | _ => true)

/-- R192, R193: the binding of an agent to a CXL port breaks a rule. -/
def cxlBindBad (n : State) (a : Nat) : Bool :=
  let port := cfgGet n keyBind a % 32
  let pers := persOf n port
  bindRole n a != 0 && (pers == .peerCxl2 || pers == .peerCxl3) &&
  ((portIds n port).head? != some a || (pers == .peerCxl3) != decide (a < 64) ||
   (pers == .peerCxl2 &&
    (match (partNumbers.filter fun p => partExists n p && bitOf (cfgGet n keyMembers p) a) with
     | [p] => !(cxl2Excl n p)
     | _ => true)))

/-- R192, R193. -/
def cxlInvalid (n : State) : Option Invalid :=
  ((partNumbers.find? (exclBad n)).map fun p => (4, keyFlags, p)).or (((List.range 256).find? (cxlBindBad n)).map fun a => (4, keyBind, a))

/-- First byte of a window, and the first beyond it. -/
def windowSpan (s : State) (p : Nat) : Nat × Nat := (cfgGet s keyWinBase p, cfgGet s keyWinBase p + cfgGet s keyWinSize p * 2 ^ 30)

/-- R183: a window is misaligned, or overlaps one of a partition of lower base (or of equal base and lower number). -/
def windowBad (n : State) (p : Nat) : Bool :=
  let w := windowSpan n p
  partExists n p && (w.1 % 2 ^ 30 != 0 || decide (2 ^ 52 < w.2) ||
    partNumbers.any fun q =>
      let v := windowSpan n q
      q != p && partExists n q && (decide (v.1 < w.1) || (v.1 == w.1 && decide (q < p))) && decide (w.1 < v.2))

/-- R183. -/
def windowInvalid (n : State) : Option Invalid := (partNumbers.find? (windowBad n)).map fun p => (5, keyWinBase, p)

/-- Chunks below x whose number ends in j. -/
def chunksBelow (x j : Nat) : Nat := (x + 63 - j) / 64

/-- R183, R212: the bytes of a window whose home is the device. -/
def windowShare (n : State) (p : Nat) : Nat :=
  let g := cfgGet n keyGran 0
  let w := windowSpan n p
  (((List.range 64).filter fun j => cfgGet n keyIt j == ownIndex n).map fun j => chunksBelow (w.2 >>> g) j - chunksBelow (w.1 >>> g) j).sum * 2 ^ g

/-- R183: usable capacity: that of the contributing modules less their metadata areas, in bytes. -/
def usableBytes (s : State) : Nat :=
  ((List.finRange 24).map fun p =>
    let m := s.ports[p].mem
    match m.desc with
    | some d => if m.taken then extentsOf d.capGiB - metaOf (extentsOf d.capGiB) else 0
    | none => 0).sum * 2 ^ 21

/-- R183: the partition at which the device-local share of the windows first exceeds a limit. -/
def shareInvalid (n : State) : Option Invalid :=
  let cap := min (2 ^ 46) (4 * usableBytes n)
  let r := partNumbers.foldl (fun (acc : Nat × Option Nat) p =>
    let sum := acc.1 + (if partExists n p then windowShare n p else 0)
    (sum, if acc.2.isNone && partExists n p && decide (cap < sum) then some p else acc.2)) (0, none)
  r.2.map fun p => (6, keyWinSize, p)

/-- R183: a quota below what is allocated, or a headroom not below its quota. -/
def quotaInvalid (n : State) : Option Invalid :=
  (partNumbers.find? fun p => partExists n p &&
    (decide (cfgGet n keyQuota p < (partState n p).alloc) || decide (cfgGet n keyQuota p ≤ cfgGet n keyHeadroom p))).map fun p => (7, keyQuota, p)

/-- R183: a partition is in use: it has allocated or LOST extents. -/
def partInUse (s : State) (p : Nat) : Bool :=
  decide (0 < (partState s p).alloc) || s.pool.fxs.any fun e => e.state == .lost && e.part == p

/-- R183: a window in use is changed. -/
def useInvalid (s n : State) : Option Invalid :=
  let bad := fun (key p : Nat) => cfgGet s key p != cfgGet n key p && partInUse s p
  ((partNumbers.find? (bad keyWinBase)).map fun p => (8, keyWinBase, p)).or ((partNumbers.find? (bad keyWinSize)).map fun p => (8, keyWinSize, p))

/-- R183, R188: TRIPLE fabric extents that a partition makes possible, and that STANDARD partitions hold. -/
def tripleInvalid (n : State) : Option Invalid :=
  let held := n.pool.fxs.countP fun e => e.state == .allocated && e.triple && !(partTriple n e.part)
  let r := partNumbers.foldl (fun (acc : Nat × Option Nat) p =>
    if partExists n p && partTriple n p then
      let sum := acc.1 + min (cfgGet n keyQuota p / 3) (cfgGet n keyWinSize p * 512)
      (sum, if acc.2.isNone && decide (256 < sum) then some p else acc.2)
    else acc) (held, none)
  r.2.map fun p => (9, keyFlags, p)

/-- R213: a window holds an address whose DLA exceeds 2^46 - 1: the last chunk of each table entry decides. -/
def dlaBad (n : State) (p : Nat) : Bool :=
  let g := cfgGet n keyGran 0
  let w := windowSpan n p
  partExists n p && (List.range 64).any fun j => decide (w.1 + j * 2 ^ g < w.2) && decide (2 ^ 46 ≤ (homeOf n (w.2 - 1 - j * 2 ^ g)).2)

/-- R213: the interleave is not valid in a domain of N devices, or is changed while memory is allocated. -/
def interleaveInvalid (s n : State) : Option Invalid :=
  let busy := partNumbers.any (partInUse s)
  let devs := n.dom.n
  let missing := (List.range devs).any fun d => !((List.range 64).any fun i => cfgGet n keyIt i == d)
  ((partNumbers.find? (dlaBad n)).map fun p => (10, keyWinSize, p)).or <|
  (if busy && cfgGet s keyGran 0 != cfgGet n keyGran 0 then some (10, keyGran, 0) else none).or <|
  ((List.range 64).find? fun i => decide (devs ≤ cfgGet n keyIt i) || (busy && cfgGet s keyIt i != cfgGet n keyIt i) || (i == 0 && missing)).map
    fun i => (10, keyIt, i)

/-- R288: the first validation failure of staged values, reasons in ascending DETAIL; the interleave is looked at when a domain-scoped key
changes (R213). -/
def validate (s : State) (staged : List CfgEnt) : Option Invalid :=
  let n := withStaged s staged
  (tooManyPorts n).or <| (portHolds s n).or <| (bindInvalid n).or <| (cxlInvalid n).or <| (windowInvalid n).or <| (shareInvalid n).or <|
  (quotaInvalid n).or <| (useInvalid s n).or <| (tripleInvalid n).or <|
  if staged.any fun e => (keyInfo e.key).any (·.domain) then interleaveInvalid s n else none

/-! ## The configuration digest (R384) -/

/-- The indices of a key. -/
def keyIndices (i : KeyInfo) : List Nat :=
  match i.index with
  | .none => [0] | .port => List.range 24 | .part => partNumbers | .agent => List.range 256 | .filter => List.range 4 | .entry => List.range 64

/-- R316: the key codes, ascending. -/
def keyCodes : List Nat :=
  [keyWmWb, keyWmTxn, keyWmSbq, keyWmPool, keyPersonality, keyGenCap, keyPoolReq, keyPoolWb, keyPoolRsp, keyPoolMem, keyEncAlg, keyWinBase,
   keyWinSize, keyQuota, keyHeadroom, keyWayLimit, keyWeight, keyMembers, keyTxnCap, keyFlags, keyWbReserve, keyMemTimeout, keyFillRun,
   keyRfmDiv, keyBind, keyRcThreshold, keyRcWindow, keyPatrolHbm, keyPatrolBacking, keyFilterEn, keyFilterBase, keyFilterSize,
   keyFilterOpcode, keyFilterAgent, keyFilterPart, keySampleN, keyFullPolicy, keyObsStream, keyObsSnapshot, keyGran, keyIt]

/-- R292: an entry of a commit image. -/
def entryBytes (e : CfgEnt) : List Byte :=
  let len := match keyInfo e.key with | some i => i.len | none => 0
  leBytes 4 e.key ++ leBytes 2 e.index ++ leBytes 2 len ++ leBytes len e.value

/-- R384: the configuration digest. -/
def configDigest (s : State) : List Byte :=
  Config.sm3 (keyCodes.flatMap fun k => match keyInfo k with
    | some i => (keyIndices i).flatMap fun x => entryBytes { key := k, index := x, value := cfgGet s k x }
    | none => [])

/-! ## The end of a CFG_COMMIT -/

/-- The first CFG_COMMIT completes with OK (R8, R355, R357, R384). -/
def noteCommitted (s : State) : State :=
  let s1 := { s with mgmt := { s.mgmt with committed := true, locked := true, digest := configDigest s } }
  if s1.clk.stepDone.contains 11 then stepEnd s1 12 else s1

/-- Every waiting CFG_COMMIT completes, and the transaction ends. -/
def commitEnds (s : State) (r : Reply) : State :=
  endWorks { s with mgmt := { s.mgmt with txn := none } } 0x0203 r

/-- R288: VALIDATION_FAILED with its DETAIL, key, index and device. -/
def replyInvalid (x : Invalid) (device : Nat) : Reply :=
  { status := stInvalid, detail := x.1, payload := leBytes 4 x.2.1 ++ leBytes 2 x.2.2 ++ leBytes 1 device }

/-- R294: DOMAIN_UNREACHABLE with the DECISION at byte 24 and the mask of the devices that have acknowledged. -/
def replyUnreached (commit : Bool) (acks : List Nat) : Reply :=
  { status := stUnreachable, payload := leBytes 8 0 ++ leBytes 8 (b2n !commit) ++ leBytes 8 (acks.map fun d => 2 ^ d).sum }

/-! ## Drain (R290) -/

/-- R290: a staged value that causes a drain. -/
def isDisruptive (s : State) (e : CfgEnt) : Bool :=
  isChange s e &&
  ((match keyInfo e.key with | some i => i.disruptive | none => false) ||
   (e.key == keyFlags && bitOf e.value 3 != bitOf (cfgGet s keyFlags e.index) 3))

/-- R213: a DISCARD_RANGE over every window, as the drain of a change of the interleave. -/
def drainDiscards (s : State) : State :=
  let ws := (partNumbers.filter (partExists s)).map fun p =>
    let w := windowSpan s p
    ({ op := 0x0413, responded := true, arg0 := w.1, arg1 := w.2 - w.1, arg2 := w.1 / 64 } : Work)
  { s with mgmt := { s.mgmt with works := s.mgmt.works ++ ws } }

/-- Table MBX-10: the drain of the disruptive keys begins. -/
def startDrain (s : State) (staged : List CfgEnt) : State :=
  let ds := staged.filter (isDisruptive s)
  let s1 := if ds.any fun e => e.key == keyGran || e.key == keyIt then drainDiscards s else s
  ds.foldl (fun s e =>
    if e.key = keyPersonality then
      (if h : e.index < 24 then s.updPort ⟨e.index, h⟩ fun x => { x with link := { x.link with draining := true } } else s)
    else if e.key = keyBind then agentAdvance s e.index (some 1) (if e.index < 64 then .idle else .disowning)
    else s) s1

/-- The transaction entries of the device. -/
def allTxns (s : State) : List Txn := (List.finRange 16).flatMap fun k => (s.slc k).txns

/-- R290: the drain of one disruptive value has ended; a port in MAINT first ends its calibration (R57). -/
def valueDrained (s : State) (e : CfgEnt) : Bool :=
  if e.key = keyPersonality then
    !((allTxns s).any fun t => match t.port with | some p => p.val == e.index && !t.drainHold | none => false) &&
    (if h : e.index < 24 then s.ports[(⟨e.index, h⟩ : Fin 24)].mem.outstanding.isEmpty && !(s.ports[(⟨e.index, h⟩ : Fin 24)].link.calRunning)
     else true)
  else if e.key = keyBind then !((allTxns s).any fun t => t.port.isSome && t.msg.src == e.index)
  else if e.key = keyGran ∨ e.key = keyIt then !(s.mgmt.works.any (·.op == 0x0413))
  else !((allTxns s).any fun t => (t.status == .opened || t.status == .closing) && windowOf s (t.msg.laddr * 64) == some e.index)

/-- R290: the drain has ended. -/
def drained (s : State) (staged : List CfgEnt) : Bool := (staged.filter (isDisruptive s)).all (valueDrained s)

/-- R288 to R290, R292: a validated transaction of the device goes on: a drain, or its window armed. -/
def startCommit (s : State) (t : CfgTxn) : State :=
  if t.staged.isEmpty then commitEnds (noteCommitted s) replyOk
  else match validate s t.staged with
    | some x => commitEnds s (replyInvalid x (ownIndex s))
    | none =>
      let any := t.staged.any (isDisruptive s)
      let s1 := { s with mgmt := { s.mgmt with txn := some { t with phase := if any then .draining else .armed } } }
      settleAll (startDrain s1 t.staged)

/-! ## Domain commit: the primary (R293, R294) -/

/-- R292: the commit image of staged values. -/
def commitImage (staged : List CfgEnt) : List Byte :=
  let es := staged.flatMap entryBytes
  es ++ leBytes 8 (crc64 es)

/-- R293 step 2: the fragments of an image. -/
def prepareFrames (id : Nat) (bs : List Byte) : List (List Byte) :=
  let n := max 1 ((bs.length + 231) / 232)
  (List.range n).map fun i =>
    leBytes 2 id ++ leBytes 2 (29 * i) ++ leBytes 2 n ++ leBytes 1 (b2n (i + 1 == n)) ++ leBytes 1 0 ++ (bs.drop (232 * i)).take 232

/-- R210: the ring carries commits and relays. -/
def ringCarries (s : State) : Bool := s.dom.formed && !s.dom.down

/-- R293: a domain commit begins: validated here, then COMMIT_PREPARE sent. -/
def startDomain (s : State) (t : CfgTxn) : State :=
  if t.staged.isEmpty then commitEnds (noteCommitted s) replyOk
  else match validate s t.staged with
    | some x => commitEnds s (replyInvalid x (ownIndex s))
    | none =>
      if !(ringCarries s) then commitEnds s (replyUnreached false [])
      else
        let id := s.dom.nextCommit
        let s1 := { s with
          mgmt := { s.mgmt with txn := some { t with phase := .ring } },
          dom := { s.dom with nextCommit := (id + 1) % 65536, vote := some { id := id, txn := t.id } } }
        (prepareFrames id (commitImage t.staged)).foldl (fun s f => ringSend s 0x20 0xFF f) s1

/-- R288 to R294: a CFG_COMMIT that has been taken begins. -/
def beginCommit (s : State) (t : CfgTxn) : State :=
  if t.domain && !(aloneInDomain s) then startDomain s t else startCommit s t

/-- R293: the secondaries of the domain. -/
def secondaries (s : State) : List Nat := (List.range s.dom.n).drop 1

/-- The vote of the primary changed. -/
def setVote (s : State) (v : Option Vote) : State := { s with dom := { s.dom with vote := v } }

/-- R294: the primary decides: the ledger is written first, then COMMIT_DECIDE is sent. -/
def primaryDecides (s : State) (v : Vote) (commit : Bool) : State :=
  let at_ := domNs s + 1000000
  let s1 := ledgerRecord s 0x0F (commitBody (v.id, commit, []))
  let s2 := { s1 with led := { s1.led with commits := s1.led.commits ++ [(v.id, commit, [])] } }
  let s3 := setVote s2 (some { v with decided := some commit, applyAt := at_, completed := !commit })
  ringSend s3 0x22 0xFF (decidePayload s3 v.id commit)

/-- R294: the primary decides commit: it drains and waits for its own window. -/
def decideCommit (s : State) (v : Vote) : State :=
  let s1 := primaryDecides s v true
  let staged := match s.mgmt.txn with | some t => t.staged | none => []
  let s2 := { s1 with dom := { s1.dom with prepared := some (v.id, staged), deciding := some (v.id, domNs s + 1000000) } }
  settleAll (startDrain s2 staged)

/-- R293, R294: the primary decides abort; CFG_COMMIT completes with the vote that was no of the lowest device, or with
DOMAIN_UNREACHABLE. -/
def decideAbort (s : State) (v : Vote) : State :=
  let worst := v.no.foldl (fun (m : Option (Nat × Nat × Nat × Nat)) x => match m with | some y => if x.1 < y.1 then some x else m | none => some x) none
  let r := match worst with | some (d, det, key, i) => replyInvalid (det, key, i) d | none => replyUnreached false []
  commitEnds (primaryDecides s v false) r

/-- R293: the votes are all there, or the transaction has been rolled back: the primary decides. -/
def countVotes (s : State) (v : Vote) : State :=
  let all := (secondaries s).all fun d => v.yes.contains d || v.no.any (·.1 == d)
  if s.mgmt.txn.isNone then primaryDecides s v false
  else if all then (if v.no.isEmpty then decideCommit s v else decideAbort s v)
  else setVote s (some v)

/-- COMMIT_VOTE (R293). -/
def commitVote (f : RingFrame) (s : State) : State :=
  ringIn s 0x21 f fun s =>
    match s.dom.vote with
    | none => s
    | some v =>
      if v.decided.isSome || leAt f.payload 0 2 != v.id then s
      else if leAt f.payload 2 1 = 0 then countVotes s { v with yes := v.yes ++ [f.src] }
      else countVotes s { v with no := v.no ++ [(f.src, leAt f.payload 3 2, leAt f.payload 5 4, leAt f.payload 9 2)] }

/-- COMMIT_VOTE (R293). -/
def execCommitVote (frame : RingFrame) (s : State) : Host.Outcome State Fault Refusal := runCmd (commitVote frame) s

/-- R293: an undecided domain commit is aborted. -/
def abortVote (s : State) : State :=
  match s.dom.vote with
  | none => s
  | some v => if v.decided.isSome then s else if s.mgmt.txn.isNone then primaryDecides s v false else decideAbort s v

/-- VOTE_TIMEOUT (R293). -/
def execVoteTimeout (s : State) : Host.Outcome State Fault Refusal := runCmd abortVote s

/-- DECIDE_REPEAT (R294). -/
def execDecideRepeat (s : State) : Host.Outcome State Fault Refusal :=
  runCmd (fun s => if onRing s && isPrimary s && ringCarries s then sendDecisions s else s) s

/-- R294: the primary's domain commit completes with OK once it has applied and every secondary has acknowledged; DIVERGED is
cleared for the devices that applied it (R295). -/
def domainDone (s : State) : State :=
  match s.dom.vote with
  | some v =>
    if v.decided == some true && !v.completed && s.dom.deciding.isNone && (secondaries s).all v.acks.contains then
      commitEnds (noteCommitted (setVote s (some { v with completed := true }))) replyOk
    else s
  | none => s

/-- R294: an acknowledgement of a decision; the last one is written to the ledger. RESULT 2 makes the device DIVERGED, RESULT 0
of a commit ends that (R295). -/
def ackOne (s : State) (id d result : Nat) : State :=
  match s.led.commits.find? (·.1 == id) with
  | none => s
  | some c =>
    let acks := if c.2.2.contains d then c.2.2 else c.2.2 ++ [d]
    let c1 := (c.1, c.2.1, acks)
    let s1 := if result = 2 then updPeer s d fun p => { p with diverged := true }
      else if result = 0 then updPeer s d fun p => { p with diverged := false } else s
    let full := (secondaries s).all acks.contains
    let s2 := if full then
        let s2 := ledgerRecord s1 0x0F (commitBody c1)
        { s2 with led := { s2.led with commits := s2.led.commits.filter (·.1 != id) } }
      else { s1 with led := { s1.led with commits := s1.led.commits.map fun x => if x.1 = id then c1 else x } }
    match s2.dom.vote with
    | some v =>
      if v.id = id then
        let s3 := setVote s2 (some { v with acks := acks })
        if full && v.decided == some true && v.completed then
          notify s3 { ntype := 6, arg := 3, word := some v.txn }
        else s3
      else s2
    | none => s2

/-- COMMIT_ACK (R294). -/
def commitAck (f : RingFrame) (s : State) : State :=
  ringIn s 0x23 f fun s => domainDone (ackOne s (leAt f.payload 0 2) f.src (leAt f.payload 2 1))

/-- COMMIT_ACK (R294). -/
def execCommitAck (frame : RingFrame) (s : State) : Host.Outcome State Fault Refusal := runCmd (commitAck frame) s

/-- ACK_TIMEOUT (R294): CFG_COMMIT completes with DOMAIN_UNREACHABLE; the decision stands. -/
def ackTimeout (s : State) : State :=
  match s.dom.vote with
  | some v =>
    if v.decided == some true && !v.completed && !((secondaries s).all v.acks.contains) then
      commitEnds (setVote s (some { v with completed := true })) (replyUnreached true v.acks)
    else s
  | none => s

/-- ACK_TIMEOUT (R294). -/
def execAckTimeout (s : State) : Host.Outcome State Fault Refusal := runCmd ackTimeout s

/-! ## Domain commit: a secondary (R293 to R295) -/

/-- R292: the entries of a commit image: key, index, length and value, up to its CRC. -/
def imageEntries : Nat → List Byte → List CfgEnt
  | 0, _ => []
  | n + 1, bs =>
    if bs.length < 8 then []
    else
      let len := leAt bs 6 2
      { key := leAt bs 0 4, index := leAt bs 4 2, value := leAt bs 8 len } :: imageEntries n (bs.drop (8 + len))

/-- R293: a vote sent to the primary. -/
def sendVote (s : State) (id : Nat) (no : Option Invalid) : State :=
  match no with
  | none => ringSend s 0x21 0 (leBytes 2 id ++ leBytes 9 0)
  | some (det, key, i) => ringSend s 0x21 0 (leBytes 2 id ++ leBytes 1 1 ++ leBytes 2 det ++ leBytes 4 key ++ leBytes 2 i)

/-- The image being received is forgotten. -/
def dropImage (s : State) : State := { s with dom := { s.dom with image := [], imageWhole := false } }

/-- R290, R293: a commit of the device's own is under way. -/
def commitRuns (s : State) : Bool :=
  match s.mgmt.txn with | some t => t.phase == .draining || t.phase == .armed | none => false

/-- R293 step 3: a whole image is validated once no commit of the device's own runs; the device enters PREPARED and votes yes,
or votes no. -/
def tryPrepare (s : State) : State :=
  if !s.dom.imageWhole || commitRuns s then s
  else
    let bs := s.dom.image
    let id := s.dom.imageId
    let body := bs.take (bs.length - 8)
    let s1 := dropImage s
    if bs.length < 8 || leAt bs (bs.length - 8) 8 != crc64 body then sendVote s1 id (some (0, 0, 0))
    else
      let staged := imageEntries body.length body
      match validate s1 staged with
      | some x => sendVote s1 id (some x)
      | none => sendVote { s1 with dom := { s1.dom with prepared := some (id, staged) } } id none

/-- COMMIT_PREPARE (R293): a fragment of an image. One that does not follow the last is missing its predecessor, which the timer
of PREPARE_FRAGMENT_TIMEOUT finds. No vote is given while live activation runs (R392), and no other image is accepted while
PREPARED. -/
def commitPrepare (f : RingFrame) (s : State) : State :=
  ringIn s 0x20 f fun s =>
    if isPrimary s || s.dom.prepared.isSome || s.dom.imageWhole || s.mgmt.state != .running then s
    else
      let id := leAt f.payload 0 2
      let have_ := if leAt f.payload 2 2 = 0 then [] else s.dom.image
      if leAt f.payload 2 2 * 8 = have_.length ∧ (leAt f.payload 2 2 = 0 ∨ id = s.dom.imageId) then
        let s1 := { s with dom := { s.dom with image := have_ ++ f.payload.drop 8, imageId := id } }
        if bitOf (leAt f.payload 6 1) 0 then tryPrepare { s1 with dom := { s1.dom with imageWhole := true } } else s1
      else s

/-- COMMIT_PREPARE (R293). -/
def execCommitPrepare (frame : RingFrame) (s : State) : Host.Outcome State Fault Refusal := runCmd (commitPrepare frame) s

/-- PREPARE_FRAGMENT_TIMEOUT (R293): a missing fragment makes the secondary vote no with DETAIL 0. -/
def execPrepareFragmentTimeout (s : State) : Host.Outcome State Fault Refusal :=
  runCmd (fun s => if s.dom.image.isEmpty || s.dom.imageWhole then s else sendVote (dropImage s) s.dom.imageId (some (0, 0, 0))) s

/-- R294: an acknowledgement sent to the primary. -/
def sendAck (s : State) (id result : Nat) : State := ringSend s 0x23 0 (leBytes 2 id ++ leBytes 1 result)

/-- R293 step 4: a device-scope CFG_COMMIT that waited for the decision begins, and a waiting image is validated. -/
def afterDecision (s : State) : State :=
  match s.mgmt.txn with
  | some t => if t.phase == .open && workRuns s [0x0203] then tryPrepare (beginCommit s t) else tryPrepare s
  | none => tryPrepare s

/-- COMMIT_DECIDE (R294): commit: the device drains and waits for its window; abort: its shadows are discarded. A repeated
decision is acknowledged again, an unknown one with RESULT 2. -/
def commitDecide (f : RingFrame) (s : State) : State :=
  ringIn s 0x22 f fun s =>
    let id := leAt f.payload 0 2
    let commit := leAt f.payload 2 1 == 0
    match s.dom.prepared with
    | some (pid, staged) =>
      if pid = id then
        if s.dom.deciding.isSome then s
        else if commit then
          settleAll (startDrain { s with dom := { s.dom with deciding := some (id, leAt f.payload 8 8) } } staged)
        else
          let s1 := { s with dom := { s.dom with prepared := none, decided := some (id, false) } }
          afterDecision (sendAck s1 id 1)
      else sendAck s id 2
    | none =>
      match s.dom.decided with
      | some (d, c) => if d = id then sendAck s id (b2n !c) else sendAck s id (if commit then 2 else 1)
      | none => sendAck s id (if commit then 2 else 1)

/-- COMMIT_DECIDE (R294). -/
def execCommitDecide (frame : RingFrame) (s : State) : Host.Outcome State Fault Refusal := runCmd (commitDecide frame) s

/-! ## The commit window (R289) -/

/-- R187: BOUND[p] of a partition in every slice when its cap takes a new value. -/
def applyCap (s : State) (p cap : Nat) : State :=
  (List.finRange 16).foldl (fun s k =>
    let held := (s.slc k).txns.countP fun t => t.pool == .general && !t.internal && t.part == p
    s.updSlc k fun sl => { sl with bound := (sl.bound.filter (·.1 != p)) ++ (if cap < held then [(p, held)] else []) }) s

/-- R165, R220: a port takes its new personality: a link down of the old one, its range released, and it trains in the new one. -/
def applyPersonality (s : State) (p : Fin 24) (v : Nat) : State :=
  let s1 := linkDown s p .disabled
  let s2 := if isMem s p then releaseRange s1 p else s1
  let s3 := { s2 with clk := { s2.clk with gates := s2.clk.gates.filter fun g => !(g.level == 4 && g.index == p.val) } }
  s3.updPort p fun x => { x with
    link := { x.link with state := if v = 1 ∨ v = 4 then .detect else .disabled, draining := false, codecRestricted := x.link.codecRestricted },
    mem := { x.mem with desc := none, taken := false, away := false, unreachable := false, verifying := false, chainDigest := [] },
    cxl := {} }

/-- R29, R57: a port that a personality commit takes out of MAINT continues in DISCOVERY. -/
def trainAfresh (s : State) (p : Fin 24) (fromMaint : Bool) : State := if fromMaint && isOlk s p then afterMaint s p else s

/-- R289: what a unit does as one staged value becomes live. -/
def applyOne (s : State) (e : CfgEnt) : State :=
  let old := cfgGet s e.key e.index
  let put := fun (s : State) => { s with mgmt := { s.mgmt with cfg := cfgPut s.mgmt.cfg e } }
  if old = e.value then s
  else if e.key = keyPersonality then
    (if h : e.index < 24 then trainAfresh (put (applyPersonality s ⟨e.index, h⟩ e.value)) ⟨e.index, h⟩ ((s.port ⟨e.index, h⟩).link.state == .maint)
     else put s)
  else if e.key = keyBind then
    put (if 64 ≤ e.index then s.updBind e.index fun b => { b with status := .idle } else s)
  else if e.key = keyWinSize ∧ old = 0 then put (updPart s e.index fun x => { x with ptr := 23 })
  else if e.key = keyTxnCap then put (applyCap s e.index e.value)
  else if e.key = keyObsStream ∧ old = 0 then
    put { s with obs := { s.obs with obsSync := 8, obsSince := 0, obsRec := [], snapQ := [], obsFromTrace := false } }
  else if e.key = keyWmWb ∨ e.key = keyWmTxn ∨ e.key = keyWmSbq ∨ e.key = keyWmPool then
    let g := e.key - keyWmWb
    put { s with mgmt := { s.mgmt with wms := Vector.ofFn fun w =>
      if w.val / 16 = g then { s.mgmt.wms[w] with recheck := true } else s.mgmt.wms[w] } }
  else put s

/-- R289: every staged value becomes live in one window. -/
def applyAll (s : State) (staged : List CfgEnt) : State :=
  offerRefused ((List.range 256).foldl (fun s p => wordWritten s 2 p) (wordWritten (staged.foldl applyOne s) 1 0))

/-- R289, R326: one paused cycle of every slice, BACK_STARVED where a source is ready, else FRONT_STARVED. -/
def pausedCycle (s : State) : State :=
  tick ((List.finRange 16).foldl (fun s k =>
    let c : SubClass := if sourceReady s k then .windowReady else .windowIdle
    s.updSlc k fun sl => { sl with cyc := some c }) s)

/-- n paused cycles. -/
def pausedCycles : Nat → State → State
  | 0, s => s
  | n + 1, s => pausedCycles n (pausedCycle s)

/-- R155 to R158: a state change of the cache armed for the window: DRAINING starts every drain walker; ENABLED from DRAINING ends
the work of CACHE_DISABLE, and from DISABLED waits for the tag sweeps. -/
def applyCache (s : State) : State :=
  match s.mgmt.windowCache with
  | none => s
  | some c =>
    let s0 := { s with mgmt := { s.mgmt with windowCache := none } }
    match c with
    | .draining =>
      if s.hbm.cache == .enabled then
        (List.finRange 16).foldl (fun s k => s.updSlc k fun sl => { sl with drain := { active := true } }) (s0.updHbm fun h => { h with cache := .draining })
      else s0
    | .enabled =>
      if s.hbm.cache == .disabled && (List.finRange 16).any (fun k => (s.slc k).sweepOff.isSome) then s
      else
        let s1 := (List.finRange 16).foldl (fun s k => s.updSlc k fun sl => { sl with drain := {} }) (s0.updHbm fun h => { h with cache := .enabled })
        endWorks (endWorks s1 0x0500 (replyNo 0)) 0x0501 replyOk
    | .disabled => s0

/-- R290: the follow-up of a committed transaction: ports that change personality, caching IDs that are swept. -/
def followUpOf (s : State) (id : Nat) (staged : List CfgEnt) : Option FollowUp :=
  let ds := staged.filter (isDisruptive s)
  if ds.isEmpty then none
  else some { txn := id, ports := (ds.filter (·.key == keyPersonality)).map (·.index),
              agents := (ds.filter fun e => e.key == keyBind && e.index < 64).map (·.index) }

/-- The follow-up joins those in progress. -/
def addFollowUp (s : State) (f : Option FollowUp) : State :=
  match f with | some x => { s with mgmt := { s.mgmt with followUps := s.mgmt.followUps ++ [x] } } | none => s

/-- R289, R290: the window of the device's own transaction. -/
def windowOwn (s : State) : State :=
  match s.mgmt.txn with
  | some t =>
    if t.phase == .armed then
      let f := followUpOf s t.id t.staged
      let s1 := applyAll s t.staged
      tryPrepare (commitEnds (addFollowUp (noteCommitted s1) f) replyOk)
    else s
  | none => s

/-- R294: the window of a domain commit may open: APPLY_AT has been reached and the drain has ended. -/
def domainReady (s : State) : Bool :=
  match s.dom.deciding, s.dom.prepared with
  | some (_, at_), some (_, staged) => s.dom.timeValid && decide (at_ ≤ domNs s) && drained s staged
  | _, _ => false

/-- R294: the window of a domain commit. -/
def windowDomain (s : State) : State :=
  match s.dom.deciding, s.dom.prepared with
  | some (id, _), some (_, staged) =>
    if domainReady s then
      let f := if isPrimary s then (match s.dom.vote with | some v => followUpOf s v.txn staged | none => none) else none
      let s1 := applyAll s staged
      let s2 := addFollowUp { s1 with dom := { s1.dom with deciding := none, prepared := none, decided := some (id, true) } } f
      if isPrimary s2 then domainDone s2
      else afterDecision (sendAck (noteCommitted s2) id 0)
    else s
  | _, _ => s

/-- R289: something is armed for a window. -/
def windowDue (s : State) : Bool :=
  s.mgmt.windowCache.isSome || domainReady s || (match s.mgmt.txn with | some t => t.phase == .armed | none => false)

/-- COMMIT_WINDOW (R289): eight paused cycles, in which every armed change becomes live. -/
def commitWindow (s : State) : State :=
  if windowDue s then
    settleAll (pausedCycles 8 (applyCache (windowDomain (windowOwn s))))
  else s

/-- COMMIT_WINDOW (R289). -/
def execCommitWindow (s : State) : Host.Outcome State Fault Refusal := runCmd commitWindow s

/-- DRAIN_DONE (R290): the drain of the device's transaction has ended, and its window is armed. -/
def drainDone (s : State) : State :=
  match s.mgmt.txn with
  | some t =>
    if t.phase == .draining && drained s t.staged then { s with mgmt := { s.mgmt with txn := some { t with phase := .armed } } } else s
  | none => s

/-- DRAIN_DONE (R290). -/
def execDrainDone (s : State) : Host.Outcome State Fault Refusal := runCmd drainDone s

/-- R290, R298: a commit that has not begun its window stops: holds released, nothing applied, TIMEOUT. -/
def commitStops (s : State) : State :=
  match s.mgmt.txn with
  | some t =>
    let s1 := if t.phase == .draining || t.phase == .armed then releaseDrain s t.staged else s
    settleAll (tryPrepare (commitEnds s1 { status := stTimeout }))
  | none => s

/-- DRAIN_TIMEOUT (R290). -/
def execDrainTimeout (s : State) : Host.Outcome State Fault Refusal :=
  runCmd (fun s => match s.mgmt.txn with | some t => if t.phase == .draining then commitStops s else s | none => s) s

/-- R290: the follow-up of a transaction has ended: its caching IDs are swept, its ports have begun to train. -/
def followUpEnded (s : State) (f : FollowUp) : Bool :=
  f.agents.all (fun a => (s.bind a).status != .disowning) &&
  f.ports.all fun p => if h : p < 24 then
    !(isOlk s ⟨p, h⟩) || s.ports[(⟨p, h⟩ : Fin 24)].link.state != .disabled else true

/-- FOLLOW_UP_DONE (R290): a CFG_EVENT reports the end of a follow-up. -/
def followUpDone (s : State) : State :=
  match s.mgmt.followUps.find? (followUpEnded s) with
  | none => s
  | some f => notify { s with mgmt := { s.mgmt with followUps := removeFirst f s.mgmt.followUps } } { ntype := 6, arg := 2, word := some f.txn }

/-- FOLLOW_UP_DONE (R290). -/
def execFollowUpDone (s : State) : Host.Outcome State Fault Refusal := runCmd followUpDone s

/-- TXN_IDLE_TIMEOUT (R291): the open transaction is rolled back, unless its CFG_COMMIT has been taken or live activation runs. -/
def txnIdle (s : State) : State :=
  match s.mgmt.txn with
  | some t =>
    if t.phase == .open && !(workRuns s [0x0203]) && s.mgmt.state == .running then
      notify { s with mgmt := { s.mgmt with txn := none } } { ntype := 6, arg := 1 + stTimeout * 2 ^ 8, word := some t.id }
    else s
  | none => s

/-- TXN_IDLE_TIMEOUT (R291). -/
def execTxnIdleTimeout (s : State) : Host.Outcome State Fault Refusal := runCmd txnIdle s

/-! ## Limits (R298) -/

/-- R298: the rows whose work continues after the limit. -/
def continues (op : Nat) : Bool := [0x0410, 0x0412, 0x0500, 0x0502, 0x0503, 0x0601, 0x0702].contains op

/-- COMMAND_LIMIT_EXPIRY (R298): the command taken at a mailbox completes with TIMEOUT; its work goes on where its row says so,
else it stops: a PORT_MAINT releases its holds (R302), a commit its drain. -/
def limitExpiry (via : Via) (s : State) : State :=
  match s.mgmt.works.find? fun w => w.via == via && !w.responded && w.op != 0x0413 with
  | none => s
  | some w =>
    let r : Reply := { status := stTimeout }
    if continues w.op then respond (updWork s w { w with responded := true }) w.via w.op w.cookie w.relayId (ownIndex s) r
    else if w.op = 0x0203 then
      (match s.mgmt.txn with
       | some t => if t.phase == .ring then endWork s w r else commitStops s
       | none => endWork s w r)
    else
      let s1 := endWork s w r
      if w.op = 0x0301 ∧ w.arg1 = 0 then
        (if h : w.arg0 < 24 then s1.updPort ⟨w.arg0, h⟩ fun x => { x with link := { x.link with draining := false } } else s1)
      else if w.op = 0x0501 then { s1 with mgmt := { s1.mgmt with windowCache := none } }
      else s1

/-- COMMAND_LIMIT_EXPIRY (R298). -/
def execCommandLimitExpiry (via : Via) (s : State) : Host.Outcome State Fault Refusal := runCmd (limitExpiry via) s

/-! ## The ring goes down (R210) -/

/-- RING_DOWN (R210): recorded and notified; relays and domain commits not yet decided end; the primary begins formation again. -/
def ringDown (s : State) : State :=
  if onRing s && s.dom.formed && !s.dom.down then
    let s1 := logClass { s with dom := { s.dom with down := true } } 0x40 5 0
    if isPrimary s1 then sendForm (abortVote (relayFails (domainEvent s1 1))) else s1
  else s

/-- RING_DOWN (R210). -/
def execRingDown (s : State) : Host.Outcome State Fault Refusal := runCmd ringDown s

end Sys2Proof.Machine
end

