-- ==== Sys2Proof/Machine/Train.lean ====
section
/-! DEFINITION. Training of a port (R29 to R33, R45), full calibration and MAINT (R57, R302), and the entry to ACTIVE (R41, R48,
R56). -/

namespace Sys2Proof.Machine
open Sys2Proof

/-! ## DETECT and DISCOVERY -/

/-- DETECT_POLL (R29): a partner found begins DISCOVERY once the port's PLL has locked (R340), unless the port waits for keys
(R394). -/
def detectPoll (p : Fin 24) (found : BitVec 4) (s : State) : State :=
  if isOlk s p && (s.port p).link.state == .detect && found != 0 && s.clk.pllLocked.contains (8 + p.val) then
    let s1 := algTakes s p
    if (s1.port p).link.waitKeys && !(phase0Usable (s1.port p).enc) then s1
    else beginDiscovery s1 p found
  else s

/-- DETECT_POLL (R29). -/
def execDetectPoll (port : Fin 24) (found : BitVec 4) (s : State) : Host.Outcome State Fault Refusal := runCmd (detectPoll port found) s

/-- R32: the width is chosen: CONFIG begins; a width below four is counted. -/
def enterConfig (s : State) (p : Fin 24) (m : BitVec 4) (cap : BitVec 3) : State :=
  let s1 := updLink (enterState s p .config) p fun x => { x with laneMask := m, partnerCap := cap }
  sendTs (if m = 15 then s1 else stalAdd s1 7 p 1) p 2

/-- The mask of the lanes of a port that satisfy a test. -/
def laneSet (x : PortLink) (f : LaneEq → Bool) : BitVec 4 :=
  BitVec.ofNat 4 (((List.finRange 4).filter fun i => f x.lanes[i]).map fun i => 2 ^ i.val).sum

/-- TS_DISC (R29, R32): a good set is counted, another one begins its lane's count again; the lanes that have reached marker lock and
make a width are kept, and once each has counted 1,024 the port goes to CONFIG without the others (DESIGN CHOICE, assumption 72: the
spec names no moment at which a lane has failed marker lock). -/
def tsDisc (p : Fin 24) (l : Fin 4) (ts : List Byte) (s : State) : State :=
  if (s.port p).link.state != .discovery then s
  else if !(tsGood ts 1) then updLane s p l fun y => { y with count := 0 }
  else
    let s1 := updLane s p l fun y => { y with count := y.count + 1, locked := true }
    let x := (s1.port p).link
    let keep := widthMask (laneSet x (·.locked))
    if lanesCounted x keep 1024 then enterConfig s1 p keep (BitVec.ofNat 3 (tsByte ts 6)) else s1

/-- TS_DISC (R32). -/
def execTsDisc (port : Fin 24) (lane : Fin 4) (ts : List Byte) (s : State) : Host.Outcome State Fault Refusal := runCmd (tsDisc port lane ts) s

/-- DISCOVERY_TIMEOUT (R29). -/
def execDiscoveryTimeout (port : Fin 24) (s : State) : Host.Outcome State Fault Refusal :=
  runCmd (fun s => if (s.port port).link.state == .discovery then toDetect s port else s) s

/-! ## CONFIG -/

/-- Table LNK-5: c-2, c-1 and c+1 of a preset, in 1/64. -/
def presetTaps : Nat → Int × Int × Int
  | 0 => (0, 0, 0) | 1 => (0, 0, -8) | 2 => (0, 0, -16) | 3 => (0, -4, -8) | 4 => (0, -8, -8) | 5 => (0, -8, -16)
  | 6 => (0, -4, -16) | 7 => (0, -8, 0) | 8 => (2, -8, -8) | _ => (4, -12, -8)

/-- R33: the starting preset of a generation. -/
def startPreset : Nat → Nat | 1 => 1 | 2 => 3 | _ => 4

/-- R29, R33: EQ begins at a generation, every lane at its starting preset. -/
def enterEq (s : State) (p : Fin 24) (gen : Nat) : State :=
  let n := startPreset gen
  let t := presetTaps n
  let s1 := updLink (enterState s p .eq) p fun x => { x with
    gen := gen, lanes := x.lanes.map fun _ => { preset := n, cm2 := t.1, cm1 := t.2.1, cp1 := t.2.2 } }
  sendTs s1 p 3

/-- R31, R394: the port has its matching TS_CFG: the lower of the two proposals is the generation; none in common, or a partner
that does not encrypt where keys are usable, ends in DETECT. -/
def leaveConfig (s : State) (p : Fin 24) : State :=
  let x := (s.port p).link
  let own := (sharedGens (advCap (s.port p)) x.partnerCap).headD 0
  let theirs := (x.partnerSet.getD 1 0).toNat
  let m := widthMask (x.laneMask &&& BitVec.ofNat 4 (x.partnerSet.getD 2 0).toNat)
  let side := (x.partnerSet.getD 3 0)
  if own = 0 ∨ theirs = 0 ∨ m = 0 then failTrain s p
  else if phase0Usable (s.port p).enc && personality s p == .peerOlk && !(side.getLsbD 3) then failTrain s p
  else
    let s1 := if m = x.laneMask then s else stalAdd s 7 p 1
    enterEq (updLink s1 p fun x => { x with laneMask := m, partnerSide := side }) p (min own theirs)

/-- TS_CFG (R29, R31). -/
def tsCfg (p : Fin 24) (l : Fin 4) (ts : List Byte) (s : State) : State :=
  let x := (s.port p).link
  if x.state != .config || !(x.laneMask.getLsbD l) || !(tsGood ts 2) || tsByte ts 5 != l.val then s
  else
    match takeTs s p l ts with
    | none => s
    | some s0 =>
      let s1 := updLink s0 p fun x => { x with partnerCap := BitVec.ofNat 3 (tsByte ts 6) }
      if lanesCounted (s1.port p).link x.laneMask 16 then leaveConfig s1 p else s1

/-- TS_CFG (R31). -/
def execTsCfg (port : Fin 24) (lane : Fin 4) (ts : List Byte) (s : State) : Host.Outcome State Fault Refusal := runCmd (tsCfg port lane ts) s

/-- CONFIG_TIMEOUT (R29). -/
def execConfigTimeout (port : Fin 24) (s : State) : Host.Outcome State Fault Refusal :=
  runCmd (fun s => if (s.port port).link.state == .config then toDetect s port else s) s

/-! ## EQ (R33) -/

/-- R33: a preset requested of the home's transmitter; one not valid at the generation is refused. -/
def askPreset (gen n : Nat) (y : LaneEq) : LaneEq :=
  if 8 ≤ y.presetReqs then y
  else if 9 < n ∨ (7 < n ∧ gen ≠ 3) then { y with presetReqs := y.presetReqs + 1, status := 2 }
  else
    let t := presetTaps n
    { y with presetReqs := y.presetReqs + 1, status := 0, preset := n, cm2 := t.1, cm1 := t.2.1, cp1 := t.2.2 }

/-- R33: the change a command asks of a tap whose magnitude grows in the direction d. -/
def tapStep (c : Nat) (d : Int) : Int := match c with | 1 => d | 2 => -d | _ => 0

/-- R33: a step of several taps, applied together or not at all: refused below OLK3 for c-2, at limit out of range or with c0 below
one half. A command code 0b11 is not assigned, and is refused. -/
def askStep (gen cmd : Nat) (y : LaneEq) : LaneEq :=
  let a := cmd % 4
  let b := bits cmd 3 2
  let c := bits cmd 5 4
  if 128 ≤ y.stepReqs then y
  else
    let y1 := { y with stepReqs := y.stepReqs + 1 }
    if (c ≠ 0 ∧ gen ≠ 3) ∨ a = 3 ∨ b = 3 ∨ c = 3 then { y1 with status := 2 }
    else
      let cm1 := y.cm1 + tapStep a (-1)
      let cp1 := y.cp1 + tapStep b (-1)
      let cm2 := y.cm2 + tapStep c 1
      if cm1 < -16 ∨ 0 < cm1 ∨ cp1 < -24 ∨ 0 < cp1 ∨ cm2 < 0 ∨ 8 < cm2 ∨ 64 - cm2 + cm1 + cp1 < 32 then { y1 with status := 1 }
      else { y1 with status := 0, cm1 := cm1, cp1 := cp1, cm2 := cm2 }

/-- R33: a coefficient command that steps each tap by a code: c-1, c+1, and c-2 at OLK3 only. -/
def stepCode (gen r : Nat) : Nat := r % 3 + (r / 3 % 3) * 4 + (if gen = 3 then r / 9 % 3 else 0) * 16

/-- R33: what the home, as receiver, asks next of a lane of the partner's transmitter: presets first, at most 8, then coefficient
steps, at most 128; then it reports EQ_DONE. Whether it asks, and for what, the spec leaves open: want and what are free
(assumption 73). -/
def nextAsk (gen want what : Nat) (y : LaneEq) : LaneEq :=
  let preset := !y.ownDone && y.askedSteps == 0 && decide (y.askedPresets < 8) && want % 3 == 1
  let step := !y.ownDone && !preset && decide (y.askedSteps < 128) && want % 3 == 2 && stepCode gen what != 0
  { y with askPreset := if preset then what % (if gen = 3 then 10 else 8) else 0xFF, askCmd := if step then stepCode gen what else 0,
           askedPresets := y.askedPresets + b2n preset, askedSteps := y.askedSteps + b2n step, ownDone := y.ownDone || (!preset && !step) }

/-- R33: the home looks at the partner's answer on a lane, and asks on. -/
def askOn (s : State) (p : Fin 24) (l : Fin 4) (answer : Nat) : State :=
  let want := freshNat s
  let what := freshNat want.2
  updLane what.2 p l fun y => nextAsk (s.port p).link.gen want.1 what.1 { y with answer := answer % 4 }

/-- R27: the scramblers of both directions loaded with their seeds. -/
def loadScramblers (s : State) (p : Fin 24) : State :=
  s.updPort p fun x => { x with tx := { x.tx with scr := laneSeeds }, rx := { x.rx with scr := laneSeeds } }

/-- R29: VERIFY begins: idle flits are exchanged, scrambled from the seeds (assumption 70); one stands for those that are repeated. -/
def enterVerify (s : State) (p : Fin 24) : State := sendIdle (loadScramblers (enterState s p .verify) p) p []

/-- R29: every active lane has received EQ_DONE: the home's own EQ_DONE goes out on every lane, and VERIFY begins. -/
def leaveEq (s : State) (p : Fin 24) : State :=
  let x := (s.port p).link
  if (lanesOf x.laneMask).all fun l => x.lanes[l].done then
    enterVerify (sendTs (updLink s p fun x => { x with lanes := x.lanes.map fun y => { y with askPreset := 0xFF, askCmd := 0, ownDone := true } }) p 3) p
  else s

/-- TS_EQ (R33): a request of the partner applied and answered, the home's own request sent with the answer; EQ_DONE on every active
lane begins VERIFY. -/
def tsEq (p : Fin 24) (l : Fin 4) (ts : List Byte) (s : State) : State :=
  let x := (s.port p).link
  if x.state != .eq || !(x.laneMask.getLsbD l) || !(tsGood ts 3) || tsByte ts 5 != l.val then s
  else match takeTs s p l ts with
    | none => s
    | some s0 =>
      let preset := tsByte ts 10
      let cmd := tsByte ts 11 % 64
      let s1 := if preset = 0xFF then s0 else updLane s0 p l (askPreset x.gen preset)
      let s2 := askOn (if cmd = 0 then s1 else updLane s1 p l (askStep x.gen cmd)) p l (tsByte ts 12)
      let s3 := s2.emit (.ts p (tsOut s2 p 3 l))
      leaveEq (if bitOf (tsByte ts 12) 2 then updLane s3 p l fun y => { y with done := true } else s3) p

/-- TS_EQ (R33). -/
def execTsEq (port : Fin 24) (lane : Fin 4) (ts : List Byte) (s : State) : Host.Outcome State Fault Refusal := runCmd (tsEq port lane ts) s

/-- R31: EQ or VERIFY has failed at a generation: it is cleared, and the next lower one both sides advertise is tried. -/
def lowerGen (s : State) (p : Fin 24) : State :=
  let x := (s.port p).link
  let s1 := updLink s p fun x => { x with genCap := dropGen x.genCap x.gen, partnerCap := dropGen x.partnerCap x.gen }
  match (sharedGens (advCap (s1.port p)) (s1.port p).link.partnerCap).filter (· < x.gen) with
  | g :: _ => enterEq s1 p g
  | [] => failTrain s1 p

/-- EQ_TIMEOUT (R31). -/
def execEqTimeout (port : Fin 24) (s : State) : Host.Outcome State Fault Refusal :=
  runCmd (fun s => if (s.port port).link.state == .eq then lowerGen s port else s) s

/-- VERIFY_TIMEOUT (R31). -/
def execVerifyTimeout (port : Fin 24) (s : State) : Host.Outcome State Fault Refusal :=
  runCmd (fun s => if (s.port port).link.state == .verify then lowerGen s port else s) s

/-! ## ACTIVE -/

/-- R56: a port encrypts the link it trains: phase 0 is usable, both sides set SIDE bit 3, at OLK3. -/
def encrypts (s : State) (p : Fin 24) : Bool :=
  personality s p == .peerOlk && phase0Usable (s.port p).enc && (s.port p).link.partnerSide.getLsbD 3 && (s.port p).link.gen == 3

/-- R27, R41, R48, R56: ACTIVE entered from VERIFY: sequence numbers begin at 0, the scramblers at their seeds, the count of flits at
credit initialisation, the receive pools of the configuration come into force, and CREDIT_INIT is sent. -/
def enterActive (s : State) (p : Fin 24) : State :=
  let pools := cfgPools s p
  let on := encrypts s p
  let s1 := (loadScramblers s p).updPort p fun x => { x with
    link := { x.link with state := .active, fromVerify := true, partnerSet := [], passed := false },
    rx := { x.rx with pools := pools }, tx := { x.tx with flits := 0, idleRun := 0 }, enc := { x.enc with on := on } }
  endFlit (placeInit s1 p) p

/-- R29: VERIFY ends once its count has been reached and 16 TS_READY have been received on every active lane; a port that holds usable
keys never comes up in clear (R394). -/
def leaveVerify (s : State) (p : Fin 24) : State :=
  let x := (s.port p).link
  if x.passed && lanesCounted x x.laneMask 16 then
    if holdsKeys (s.port p).enc && !(encrypts s p) then failTrain s p else enterActive s p
  else s

/-- VERIFY_PASS (R29). -/
def verifyPass (p : Fin 24) (s : State) : State :=
  if (s.port p).link.state == .verify then leaveVerify (sendTs (updLink s p fun x => { x with passed := true }) p 4) p else s

/-- VERIFY_PASS (R29). -/
def execVerifyPass (port : Fin 24) (s : State) : Host.Outcome State Fault Refusal := runCmd (verifyPass port) s

/-! ## Replay and RETRAIN (R44, R45) -/

/-- R42, R44: flits before a sequence number are acknowledged; progress begins the count of replays again. -/
def ackTo (s : State) (p : Fin 24) (seq : Nat) : State :=
  s.updPort p fun x =>
    let keep := x.tx.replay.filter fun f => decide ((seq + 1024 - f.seq) % 1024 = 0 ∨ 512 < (seq + 1024 - f.seq) % 1024)
    if keep.length = x.tx.replay.length then x else { x with tx := { x.tx with replay := keep, replays := 0 } }

/-- R44, R28, R39: flits sent again, unchanged; no idle flit stands before one that continues a message. -/
def replayFlits (p : Fin 24) : List TxFlit → State → State
  | [], s => s
  | f :: fs, s =>
    let s0 := if f.cont = 0 then idleBefore s p (1 + (fs.takeWhile fun g => g.cont != 0).length + 1) else s
    let s1 := emitFlit s0 p (encodeFlit (s.port p).link.gen f.seq true f.cont f.phase f.slots)
    replayFlits p fs (countEv (s1.updPort p fun x => { x with tx := { x.tx with flitsReplayed := x.tx.flitsReplayed + 1 } }) 0x0203 p)

/-- R44: every unacknowledged flit from a number onward is sent again. A flit being packed takes its number first. -/
def replayFrom (s0 : State) (p : Fin 24) (seq : Nat) : State :=
  let s := endFlit s0 p
  replayFlits p ((s.port p).tx.replay.filter fun f => decide ((f.seq + 1024 - seq) % 1024 < 512)) s

/-- R29, R44: the port enters RETRAIN; the entry is counted. -/
def enterRetrain (s : State) (p : Fin 24) : State :=
  if (s.port p).link.state != .active then s
  else sendTs (countEv (stalAdd (enterState (endFlit s p) p .retrain) 7 p 1) 0x0206 p) p 5

/-- R27, R32, R45: RETRAIN ends when 16 TS_READY have been received on every lane that has relocked; other lanes are dropped, and the
port resumes by replaying from the partner's ESEQ. -/
def leaveRetrain (s : State) (p : Fin 24) : State :=
  let x := (s.port p).link
  let keep := widthMask (x.laneMask &&& laneSet x fun y => y.done || decide (1 ≤ y.count))
  if lanesCounted x keep 16 then
    let eseq := leAt x.partnerSet 4 2 % 1024
    let s1 := sendTs (if keep = x.laneMask then s else stalAdd s 7 p 1) p 4
    let s2 := loadScramblers (updLink s1 p fun x => { x with state := .active, laneMask := keep, partnerSet := [] }) p
    drainSnp (replayFrom (ackTo s2 p eseq) p eseq) p
  else s

/-- TS_READY (R29, R45). -/
def tsReady (p : Fin 24) (l : Fin 4) (ts : List Byte) (s : State) : State :=
  let x := (s.port p).link
  if !(x.laneMask.getLsbD l) || !(tsGood ts 4) || tsByte ts 5 != l.val then s
  else match x.state with
    | .verify => (match takeTs s p l ts with | some s1 => leaveVerify s1 p | none => s)
    | .retrain => (match takeTs s p l ts with | some s1 => leaveRetrain s1 p | none => s)
    | _ => s

/-- TS_READY (R45). -/
def execTsReady (port : Fin 24) (lane : Fin 4) (ts : List Byte) (s : State) : Host.Outcome State Fault Refusal := runCmd (tsReady port lane ts) s

/-- TS_RETRAIN (R29): the partner retrains: the port follows it into RETRAIN, and the lane has relocked. -/
def tsRetrain (p : Fin 24) (l : Fin 4) (ts : List Byte) (s : State) : State :=
  let x := (s.port p).link
  if !(x.laneMask.getLsbD l) || !(tsGood ts 5) || tsByte ts 5 != l.val then s
  else
    let s1 := enterRetrain s p
    if (s1.port p).link.state == .retrain then
      (match takeTs s1 p l ts with | some s2 => updLane s2 p l fun y => { y with done := true, count := 0 } | none => s1)
    else s1

/-- TS_RETRAIN (R29). -/
def execTsRetrain (port : Fin 24) (lane : Fin 4) (ts : List Byte) (s : State) : Host.Outcome State Fault Refusal := runCmd (tsRetrain port lane ts) s

/-- RETRAIN_TIMEOUT (R46): the link goes down. -/
def execRetrainTimeout (port : Fin 24) (s : State) : Host.Outcome State Fault Refusal :=
  runCmd (fun s => if (s.port port).link.state == .retrain then linkDown s port .detect else s) s

/-- LOSS_OF_SIGNAL (R46): the link goes down; a port that has not reached ACTIVE trains again, and MAINT stays (R57). A CXL link
goes down in the same way. -/
def lossOfSignal (p : Fin 24) (s : State) : State :=
  if isOlk s p then
    (match (s.port p).link.state with
     | .active | .retrain => linkDown s p .detect
     | .discovery | .config | .eq | .verify => toDetect s p
     | _ => s)
  else if (s.port p).cxl.up then linkDown s p .disabled
  else s

/-- LOSS_OF_SIGNAL (R46). -/
def execLossOfSignal (port : Fin 24) (s : State) : Host.Outcome State Fault Refusal := runCmd (lossOfSignal port) s

/-! ## MAINT and calibration (R57, R302) -/

/-- R57: a transaction that a port carries is open: one of its agents' requests, or one that snoops an agent of the port. -/
def carries (s : State) (p : Fin 24) (t : Txn) : Bool :=
  t.port == some p || t.snoops.any fun n => !n.answered && bindPort s n.agent == some p

/-- R57: the port is drained: no transaction it carries is open, its receive buffers and egress are empty, every credit is returned but
the REQ credits held back, and no sequenced flit is unacknowledged. -/
def portDrained (s : State) (p : Fin 24) : Bool :=
  let x := s.port p
  !((allTxns s).any (carries s p)) && x.reqQ.isEmpty && x.wbQ.isEmpty && x.rspQ.isEmpty && x.memQ.isEmpty &&
  x.mem.outstanding.isEmpty && x.tx.cmpQ.isEmpty && x.tx.snpQ.isEmpty && x.tx.packed.isEmpty && x.tx.ctlQ.isEmpty && x.tx.replay.isEmpty &&
  (if isPeer s p then { x.rx.due with req := 0 } else x.rx.due) == {}

/-- R57: a deferred calibration begins as the port stands in MAINT. -/
def startCalibration (s : State) (p : Fin 24) : State :=
  if (s.port p).link.calPending then updLink s p fun x => { x with calPending := false, calRunning := true } else s

/-- R57, R222: a drained port enters MAINT: its epoch and those of its active IDs advance, and both sides of its link return to
their initial values; its keys stay. PORT_MAINT completes. -/
def enterMaint (s : State) (p : Fin 24) : State :=
  let x := s.port p
  let keep := fun (y : Port) => { y with
    enc := x.enc, rx := { y.rx with run := x.rx.run, phase := x.rx.phase },
    tx := { y.tx with run := x.tx.run, phase := x.tx.phase },
    link := { y.link with waitKeys := x.link.waitKeys, calPending := x.link.calPending },
    mem := { y.mem with away := y.mem.taken, verifying := false } }
  let s1 := dropEgress (portAdvance ((clearLink s p .maint).updPort p keep) p) p
  let s2 := startCalibration s1 p
  let ws := s2.mgmt.works.filter fun w => w.op == 0x0301 && w.arg0 == p.val && w.arg1 == 0
  settleAll (ws.foldl (fun s w => endWork s w replyOk) s2)

/-- MAINT_ENTRY (R57): a port that drains for PORT_MAINT and has drained enters MAINT. A port whose link is not up has nothing to drain; a CXL port drains in the same way. -/
def maintEntry (p : Fin 24) (s : State) : State :=
  if maintDrains s p && portDrained s p && (s.port p).link.state != .retrain then enterMaint s p else s

/-- MAINT_ENTRY (R57). -/
def execMaintEntry (port : Fin 24) (s : State) : Host.Outcome State Fault Refusal := runCmd (maintEntry port) s

/-- R57: a port leaves MAINT and trains afresh from DISCOVERY, on all of its lanes (DESIGN CHOICE, assumption 72: R32 lets a reduced
width last until the next DETECT and does not speak of MAINT); a CXL port waits for its host. A gated port is woken (R350). -/
def leaveMaint (s : State) (p : Fin 24) : State :=
  let s0 := { s with clk := { s.clk with gates := s.clk.gates.filter fun g => !(g.level == 4 && g.index == p.val) } }
  if isOlk s0 p then afterMaint s0 p
  else updLink s0 p fun x => { x with state := .disabled }

/-- CALIBRATION_DONE (R57): the calibration ends, the port stays in MAINT; a PORT_MAINT leave that waited goes on (R302). -/
def calibrationDone (p : Fin 24) (s : State) : State :=
  if (s.port p).link.calRunning then
    let s1 := updLink s p fun x => { x with calRunning := false }
    let mine := fun (op arg1 : Nat) => s1.mgmt.works.filter fun w => w.op == op && w.arg0 == p.val && w.arg1 == arg1
    let s2 := (mine 0x0302 0).foldl (fun s w => endWork s w replyOk) s1
    (mine 0x0301 1).foldl (fun s w => endWork (leaveMaint s p) w replyOk) s2
  else s

/-- CALIBRATION_DONE (R57). -/
def execCalibrationDone (port : Fin 24) (s : State) : Host.Outcome State Fault Refusal := runCmd (calibrationDone port) s

end Sys2Proof.Machine
end

