-- ==== Sys2Proof/Machine/Link.lean ====
section
/-! DEFINITION. The link layer of a port as a receiver: flits (R38, R43), acknowledgement (R42, R44), credits (R48 to R52, R260),
binding (R54, R55), encrypted runs (R56, R394), and the link keys (R393). -/

namespace Sys2Proof.Machine
open Sys2Proof

/-! ## Acknowledgement (R42 to R44) -/

/-- An Olilek port is ACTIVE. -/
def portActive (s : State) (p : Fin 24) : Bool := (s.port p).link.state == .active

/-- R42: an acknowledgement sent in an idle flit. -/
def sendAckNow (s : State) (p : Fin 24) : State :=
  sendIdle (s.updPort p fun x => { x with rx := { x.rx with unacked := 0 } }) p [ackSlot (s.port p).rx.eseq false]

/-- R43: a NAK for ESEQ, at most once in 3 us (6,000 core cycles) for one ESEQ; nothing is accepted until ESEQ arrives. -/
def sendNak (s : State) (p : Fin 24) : State :=
  let x := (s.port p).rx
  let held := match x.nakAt with | some c => decide (s.obs.cycles < c + 6000) | none => false
  let s1 := s.updPort p fun x => { x with rx := { x.rx with nakWait := true } }
  if held then s1
  else sendIdle (s1.updPort p fun x => { x with rx := { x.rx with nakAt := some s.obs.cycles } }) p [ackSlot x.eseq true]

/-- R38, R43: a flit error is counted and answered with a NAK. -/
def flitError (s : State) (p : Fin 24) : State := sendNak (countEv s 0x0204 p) p

/-- R44: an ACK_NAK slot of a flit frees the flits before its number; a NAK asks for a replay, which begins when the slots of the flit
have been handled. -/
def noteAck (p : Fin 24) (nak : Bool) (seq : Nat) (s : State) : State :=
  if !(isOlk s p) || !(portActive s p) then s
  else if nak then (ackTo s p seq).updPort p fun x => { x with tx := { x.tx with nakDue := true } }
  else ackTo s p seq

/-- R44: a replay from the oldest unacknowledged flit, counted; after four from the same number without progress the port enters
RETRAIN. -/
def replayOldest (s : State) (p : Fin 24) : State :=
  match (endFlit s p).port p |>.tx.replay with
  | [] => s
  | f :: _ =>
    if 4 ≤ (s.port p).tx.replays then enterRetrain (s.updPort p fun x => { x with tx := { x.tx with replays := 0 } }) p
    else replayFrom (s.updPort p fun x => { x with tx := { x.tx with replays := x.tx.replays + 1 } }) p f.seq

/-- R44: the end of a flit's ACK_NAK slots: every acknowledged flit is free, so that a replay a NAK asked for begins at the highest ESEQ
named; what waited for room follows. -/
def acksEnd (s : State) (p : Fin 24) : State :=
  if !(portActive s p) then s
  else if (s.port p).tx.nakDue then drainSnp (replayOldest (s.updPort p fun x => { x with tx := { x.tx with nakDue := false } }) p) p
  else drainSnp s p

/-- R44: an ACK frees the flits before its number; a NAK replays from it. -/
def ackNak (p : Fin 24) (nak : Bool) (seq : Nat) (s : State) : State := acksEnd (noteAck p nak seq s) p

/-- ACK_NAK (R44). -/
def execAckNak (port : Fin 24) (nak : Bool) (seq : Nat) (s : State) : Host.Outcome State Fault Refusal := runCmd (ackNak port nak (seq % 1024)) s

/-- ACK_TIMER (R42). -/
def execAckTimer (port : Fin 24) (s : State) : Host.Outcome State Fault Refusal :=
  runCmd (fun s => if portActive s port && decide (0 < (s.port port).rx.unacked) then sendAckNow s port else s) s

/-- REPLAY_TIMEOUT (R44): the transmitter replays from its oldest flit; four replays without progress enter RETRAIN. -/
def replayTimeout (p : Fin 24) (s : State) : State :=
  if portActive s p && !(s.port p).tx.replay.isEmpty then replayOldest s p else s

/-- REPLAY_TIMEOUT (R44). -/
def execReplayTimeout (port : Fin 24) (s : State) : Host.Outcome State Fault Refusal := runCmd (replayTimeout port) s

/-! ## Credits (R48 to R52, R260) -/

/-- The counts of a CREDIT_INIT or CREDIT_RETURN slot. -/
def slotCounts (slot : List Byte) : VcCount :=
  { req := leAt slot 2 2, wb := leAt slot 4 2, snp := leAt slot 6 2, rsp := leAt slot 8 2, cmp := leAt slot 10 2, mem := leAt slot 12 2 }

/-- R47: the partner sends on a channel of the port. -/
def partnerSends (s : State) (p : Fin 24) (v : Nat) : Bool := if isMem s p then v == 5 else v == 0 || v == 1 || v == 3

/-- The counts of the channels on which the home sends. -/
def sendOnly (s : State) (p : Fin 24) (c : VcCount) : VcCount :=
  (List.range 6).foldl (fun a v => if homeSends s p v then a else vcSet a v 0) c

/-- R48, R49: the partner's CREDIT_INIT: a second one is a protocol error, one below the minimum is refused by a link down, else
the credits are held. -/
def creditInit (p : Fin 24) (slot : List Byte) (s : State) : State :=
  let c := slotCounts slot
  if !(isOlk s p) || !(portActive s p) then s
  else if (s.port p).rx.initSeen then protocolError s p
  else if (if isMem s p then decide (c.mem < 40) else decide (c.snp < 16 ∨ c.cmp < 40)) then protocolError s p
  else
    let c1 := sendOnly s p c
    drainSnp (s.updPort p fun x => { x with
      rx := { x.rx with initSeen := true }, tx := { x.tx with pools := c1, avail := c1 } }) p

/-- CREDIT_INIT (R48). -/
def execCreditInit (port : Fin 24) (slot : List Byte) (s : State) : Host.Outcome State Fault Refusal := runCmd (creditInit port slot) s

/-- R40, R50: credits returned on the channels the home sends on; on any other, a protocol error. -/
def creditReturn (p : Fin 24) (slot : List Byte) (s : State) : State :=
  let c := slotCounts slot
  if !(isOlk s p) || !(portActive s p) then s
  else if sendOnly s p c != c then protocolError s p
  else
    drainSnp (s.updPort p fun x => { x with tx := { x.tx with
      avail := vcSum x.tx.avail c, retRcvd := vcSum x.tx.retRcvd c, shRetRcvd := vcSum x.tx.shRetRcvd c } }) p

/-- CREDIT_RETURN (R50). -/
def execCreditReturn (port : Fin 24) (slot : List Byte) (s : State) : Host.Outcome State Fault Refusal := runCmd (creditReturn port slot) s

/-- CREDIT_RETURN_TIMER (R50). -/
def execCreditReturnTimer (port : Fin 24) (s : State) : Host.Outcome State Fault Refusal := runCmd (fun s => returnCredits s port) s

/-- CREDIT_AUDIT_DUE (R51, R53): 4,096 flits have been sent since the last count: one CREDIT_AUDIT for each channel the home sends on,
at once or when the replay buffer has space. -/
def creditAuditDue (p : Fin 24) (s : State) : State :=
  if flowing s p && (s.port p).rx.initSeen && decide (4096 ≤ (s.port p).tx.flits) then
    placeAudits (s.updPort p fun x => { x with tx := { x.tx with flits := x.tx.flits - 4096, auditDue := true } }) p
  else s

/-- CREDIT_AUDIT_DUE (R51). -/
def execCreditAuditDue (port : Fin 24) (s : State) : Host.Outcome State Fault Refusal := runCmd (creditAuditDue port) s

/-- R52: the four checks of a partner's CREDIT_AUDIT. -/
def auditHolds (x : Port) (v : Nat) (slot : List Byte) : Bool :=
  let sent := leAt slot 2 4
  let ret := leAt slot 6 4
  let avail := leAt slot 10 2
  let pool := leAt slot 12 2
  sent == vcGet x.rx.rcvd v % 2 ^ 32 && pool == vcGet x.rx.pools v && (avail + sent + 2 ^ 32 - ret) % 2 ^ 32 == pool &&
  decide ((vcGet x.rx.retSent v + 2 ^ 32 - ret) % 2 ^ 32 ≤ pool)

/-- CREDIT_AUDIT (R40, R52, R260): a failed check is a port fault of the partner when the home's own checks hold, else a
conservation fault of the device. -/
def creditAudit (p : Fin 24) (slot : List Byte) (s : State) : State :=
  let v := leAt slot 1 1
  if !(isOlk s p) || !(portActive s p) then s
  else if 5 < v ∨ !(partnerSends s p v) then protocolError s p
  else if auditHolds (s.port p) v slot then s
  else if vcHolds s p v then portFault s p v
  else settleFault s (contain s (faultCode 0x01 1 p v))

/-- CREDIT_AUDIT (R52). -/
def execCreditAudit (port : Fin 24) (slot : List Byte) (s : State) : Host.Outcome State Fault Refusal := runCmd (creditAudit port slot) s

/-! ## Binding (R54, R55) -/

/-- R54, R219: the REASON for an agent ID named in a BIND_REQ; every later place of an ID receives 0b11, of ID 255 too, as R54
states. -/
def bindReason (s : State) (p : Fin 24) (a : Nat) (caching again : Bool) : Nat :=
  let b := s.bind a
  let here := bindPort s a == some p
  if again then 3
  else if a == 255 || b.status == .disowning then 1
  else if !here then (if b.status == .active then 3 else 1)
  else if (bindRole s a == 1) != caching || bindRole s a == 0 then 2
  else if b.status == .active then 3
  else if b.status == .withdrawn then 1
  else 0

/-- Table LNK-9: a BIND_ACK slot. -/
def bindAck (s : State) (p : Fin 24) (accept : Nat) (epochs : List Nat) (reasons : Nat) : List Byte :=
  padTo 18 ([0xF5] ++ leBytes 1 (s.port p).epoch ++ leBytes 1 accept ++ padTo 8 (epochs.map (BitVec.ofNat 8)) ++ leBytes 2 reasons ++
    leBytes 1 (ownIndex s) ++ leBytes 1 (b2n s.dom.timeValid))

/-- R54: the IDs of a BIND_REQ in their order, with place, ID, CACHING bit, and whether named before. -/
def bindNames (slot : List Byte) : List (Nat × Nat × Bool × Bool) :=
  let n := leAt slot 1 1
  let ids := (List.range n).map fun i => leAt slot (2 + i) 1
  (List.range n).map fun i => (i, ids.getD i 0, bitOf (leAt slot 10 1) i, (ids.take i).contains (ids.getD i 0))

/-- R330: the histogram mode of a port is fixed at its BIND_ACK; its bins are cleared when the mode changes. -/
def histBind (s : State) (p : Fin 24) (e2e : Bool) : State :=
  if (s.port p).histE2e == e2e then s
  else
    let s1 := s.updPort p fun x => { x with histE2e := e2e }
    { s1 with obs := { s1.obs with hist := s1.obs.hist.filter fun x => x.1 != p.val } }

/-- BIND_REQ (R54, R40): a second one, one on a memory port or one that does not name 1 to 8 IDs takes the link down; else each ID
is checked, those accepted become active, and BIND_ACK answers. -/
def bindReq (p : Fin 24) (slot : List Byte) (s : State) : State :=
  let n := leAt slot 1 1
  if !(isOlk s p) || !(portActive s p) then s
  else if isMem s p || (s.port p).rx.bindSeen || n == 0 || decide (8 < n) then protocolError s p
  else
    let names := bindNames slot
    let why := names.map fun x => (x.1, x.2.1, bindReason s p x.2.1 x.2.2.1 x.2.2.2)
    let ts := bitOf (leAt slot 15 1) 0 && s.dom.timeValid
    let s1 := histBind (s.updPort p fun x => { x with rx := { x.rx with
      bindSeen := true, maker := leAt slot 11 2, product := leAt slot 13 2, tsEnabled := ts, tagLimit := leAt slot 16 2 % 4096 + 1 } }) p ts
    let s2 := (why.filter fun x => x.2.2 == 0).foldl (fun s x => s.updBind x.2.1 fun b => { b with status := .active, failed := false }) s1
    let accept := (why.map fun x => if x.2.2 = 0 then 2 ^ x.1 else 0).sum
    let reasons := (why.map fun x => x.2.2 * 4 ^ x.1).sum
    placeCtl s2 p (bindAck s2 p accept (why.map fun x => if x.2.2 = 0 then (s2.bind x.2.1).epoch else 0) reasons)

/-- BIND_REQ (R54). -/
def execBindReq (port : Fin 24) (slot : List Byte) (s : State) : Host.Outcome State Fault Refusal := runCmd (bindReq port slot) s

/-- Table LNK-9: what a MOD_DESC declares. -/
def descOf (slot : List Byte) : ModDesc :=
  { mode := leAt slot 1 1, capGiB := leAt slot 2 2, ranks := leAt slot 4 1, chips := leAt slot 5 1, maker := leAt slot 6 2,
    product := leAt slot 8 2, latency := leAt slot 10 2 }

/-- R164, R165: a module taken into the pool, or refused; whether it was taken. -/
def offerModule (s : State) (p : Fin 24) (d : ModDesc) : State × Bool :=
  match takeModule s p d with
  | some s1 => (offerRefused s1, true)
  | none => (offerRefused (refuseModule s p d), (((offerRefused (refuseModule s p d)).port p).mem.taken))

/-- MOD_DESC (R55, R164): on a memory port, once in a link-up. -/
def modDesc (p : Fin 24) (slot : List Byte) (s : State) : State :=
  if !(isOlk s p) || !(portActive s p) then s
  else if !(isMem s p) || (s.port p).rx.bindSeen then protocolError s p
  else
    let s1 := s.updPort p fun x => { x with rx := { x.rx with bindSeen := true } }
    let (s2, ok) := offerModule s1 p (descOf slot)
    settleAll (placeCtl s2 p (bindAck s2 p (b2n ok) [] 0))

/-- MOD_DESC (R164). -/
def execModDesc (port : Fin 24) (slot : List Byte) (s : State) : Host.Outcome State Fault Refusal := runCmd (modDesc port slot) s

/-! ## Slots delivered (R39, R40, R78) -/

/-- A message whose slots are all there goes to the crossbar, or answers a memory request. -/
def deliverMsg (s : State) (p : Fin 24) (slots : List (List Byte)) : State :=
  let h := slots.headD []
  match opOfCode (leAt h 0 1) with
  | none => protocolError s p
  | some o =>
    if isMem s p then
      (match o with
       | .memRdData => memRdData p (decodeMem h (slots.drop 1)) s
       | .memWrAck => memWrAck p (decodeMem h []).tag (decodeMem h []).maddr true s
       | _ => protocolError s p)
    else
      let dm := decodeData (slots.drop 1)
      ingress s p o (decodeHdr h) dm.1 (BitVec.ofNat 64 dm.2)

/-- R56: the MAC slot of a link in clear has no place (R40). -/
def controlSlot (s : State) (p : Fin 24) (slot : List Byte) : State :=
  match leAt slot 0 1 with
  | 0xF0 => noteAck p (bitOf (leAt slot 1 2) 10) (leAt slot 1 2 % 1024) s
  | 0xF1 => creditInit p slot s
  | 0xF2 => creditReturn p slot s
  | 0xF3 => creditAudit p slot s
  | 0xF4 => bindReq p slot s
  | 0xF6 => modDesc p slot s
  | _ => protocolError s p

/-- R39: one slot received: a data slot of the message owed, NOP, a link-control slot, or a header slot. -/
def takeSlot (p : Fin 24) (s : State) (slot : List Byte) : State :=
  let x := (s.port p).rx
  if !(portActive s p) then s
  else if 0 < x.owed then
    let got := x.assembling ++ [slot]
    if x.owed = 1 then deliverMsg (s.updPort p fun y => { y with rx := { y.rx with owed := 0, assembling := [] } }) p got
    else s.updPort p fun y => { y with rx := { y.rx with owed := x.owed - 1, assembling := got } }
  else
    let c := leAt slot 0 1
    if c = 0 then s
    else if 0xF0 ≤ c then controlSlot s p slot
    else match opOfCode c with
      | none => protocolError s p
      | some o =>
        if opHasData o then s.updPort p fun y => { y with rx := { y.rx with owed := 4, assembling := [slot] } }
        else deliverMsg s p [slot]

/-- R38 step 5: the slots of one accepted flit: CONT must equal the data slots owed. -/
def takeFlitSlots (s : State) (p : Fin 24) (cont : Nat) (slots : List (List Byte)) : State :=
  if (s.port p).rx.owed != cont then protocolError s p else acksEnd (slots.foldl (takeSlot p) s) p

/-! ## Encrypted runs (R56, R394) -/

/-- R56: the flits of a run whose MAC has checked are delivered in order; an element of 2 bytes is the header of a flit. -/
def deliverRun (p : Fin 24) : Nat → List (List Byte) → State → State
  | 0, _, s => s
  | n + 1, held, s =>
    match held with
    | [] => s
    | h :: rest =>
      let mine := rest.takeWhile fun x => x.length != 2
      deliverRun p n (rest.drop mine.length) (takeFlitSlots s p (bits (ofLe h) 13 11) mine)

/-- MAC (R56): the MAC of the run received is checked over its headers and slots as received: the run is delivered, or the link
goes down. On a link in clear a MAC slot is a protocol error (R40). -/
def macSlot (p : Fin 24) (slot : List Byte) (s : State) : State :=
  let x := s.port p
  if !(isOlk s p) || !(portActive s p) then s
  else if !x.enc.on then protocolError s p
  else match keyOf x.enc true x.rx.phase with
    | none => macFails s p
    | some k =>
      if x.rx.runFlits = 8 ∧ bitOf (leAt slot 1 1) 0 = x.rx.phase ∧
          (slot.drop 2).take 16 = padTo 16 (Config.macTag x.enc.algInForce k.key (runIv k x.rx.run) 8 x.rx.runCipher) then
        deliverRun p 8 x.rx.runHeld
          (s.updPort p fun y => { y with rx := { y.rx with runHeld := [], runCipher := [], runFlits := 0, run := x.rx.run + 1 } })
      else macFails s p

/-- MAC (R56). -/
def execMac (port : Fin 24) (slot : List Byte) (s : State) : Host.Outcome State Fault Refusal := runCmd (macSlot port slot) s

/-- R394: the first run in a new phase: the receiver erases the other phase's key, and counts its runs from 0. -/
def rxPhase (s : State) (p : Fin 24) (phase : Bool) : State :=
  if (s.port p).rx.phase == phase then s
  else s.updPort p fun x => { x with
    rx := { x.rx with phase := phase, run := 0 },
    enc := if phase then { x.enc with rx0 := none } else { x.enc with rx1 := none } }

/-- R56: a sequenced flit of an encrypted link: the MAC of the run before it, which stands behind the data slots that continue a
message (R39), then its own slots, held with their run. -/
def takeSecret (s : State) (p : Fin 24) (hdr : List Byte) (slots : List (List Byte)) : State :=
  let phase := bitOf (ofLe hdr) 14
  let due := (s.port p).rx.runFlits == 8
  let cont := bits (ofLe hdr) 13 11
  let macs := if due then (slots.drop cont).take 1 else []
  let own := if due then slots.take cont ++ slots.drop (cont + 1) else slots
  let s1 := if due then macs.foldl (fun s m => if leAt m 0 1 = 0xF7 then macSlot p m s else macFails s p) s else s
  if !(portActive s1 p) then s1
  else
    let x0 := s1.port p
    if x0.rx.runFlits != 0 && x0.rx.phase != phase then macFails s1 p
    else
      let s2 := rxPhase s1 p phase
      let x := s2.port p
      match keyOf x.enc true phase with
      | none => macFails s2 p
      | some k =>
        if !k.usable then macFails s2 p
        else
          let plain := Config.decrypt x.enc.algInForce k.key (runIv k x.rx.run) x.rx.runFlits own
          s2.updPort p fun y => { y with rx := { y.rx with
            runFlits := x.rx.runFlits + 1, runHeld := x.rx.runHeld ++ hdr :: plain, runCipher := x.rx.runCipher ++ hdr :: own } }

/-! ## Flits (R38, R43) -/

/-- R34: the slots of a flit. -/
def flitSlots (gen : Nat) (body : List Byte) : List (List Byte) :=
  (List.range (slotsPerFlit gen)).map fun k => (body.drop (2 + 18 * k)).take 18

/-- R39, R40, R58: a slot that has no place in an idle flit: every slot but NOP and ACK_NAK. -/
def idleMisplaced (slot : List Byte) : Bool := leAt slot 0 1 != 0 && leAt slot 0 1 != 0xF0

/-- R39, R40, R42, R43: an idle flit: a slot other than NOP and ACK_NAK, CONT, or a message owed makes it a protocol error; its
acknowledgements are handled whatever its SEQ (DESIGN CHOICE, assumption 74, as is the protocol error of an assigned slot such as
CREDIT_INIT), and one whose SEQ differs from ESEQ is answered with a NAK. -/
def takeIdle (s : State) (p : Fin 24) (seq cont : Nat) (slots : List (List Byte)) : State :=
  if slots.any idleMisplaced || cont != 0 || (seq == (s.port p).rx.eseq && (s.port p).rx.owed != 0 && !(s.port p).enc.on) then protocolError s p
  else
    let s1 := acksEnd ((slots.filter fun x => leAt x 0 1 == 0xF0).foldl (fun s x => noteAck p (bitOf (leAt x 1 2) 10) (leAt x 1 2 % 1024) s) s) p
    if portActive s1 p && seq != (s.port p).rx.eseq then sendNak s1 p else s1

/-- R38, R42: a sequenced flit numbered ESEQ is accepted; an acknowledgement is sent at the latest after 32. -/
def acceptFlit (s : State) (p : Fin 24) (body : List Byte) (cont : Nat) (slots : List (List Byte)) : State :=
  let s1 := s.updPort p fun x => { x with rx := { x.rx with
    eseq := (x.rx.eseq + 1) % 1024, nakWait := false, nakAt := none, unacked := x.rx.unacked + 1 } }
  let s2 := if (s1.port p).enc.on then takeSecret s1 p (body.take 2) slots else takeFlitSlots s1 p cont slots
  if portActive s2 p && decide (32 ≤ (s2.port p).rx.unacked) then sendAckNow s2 p else s2

/-- R26, R27: the bytes of a flit as received, descrambled on their lanes. -/
def unscramble (s : State) (p : Fin 24) (bytes : List Byte) : List Byte × State :=
  let x := s.port p
  let r := scrambleFlit (activeLanes x.link.laneMask).length x.rx.scr bytes
  (r.1, s.updPort p fun x => { x with rx := { x.rx with scr := r.2 } })

/-- R37, R38 steps 1 to 3: the bytes of a flit after FEC decoding and the symbols corrected; none for a flit error. -/
def goodFlit (gen : Nat) (bytes : List Byte) : Option (List Byte × Nat) :=
  match fecDecode gen bytes with
  | none => none
  | some (w, n) =>
    let data := w.take (2 + 18 * slotsPerFlit gen)
    if (w.drop data.length).take (if gen = 1 then 6 else 8) = flitCrc gen data && !(bitOf (leAt w 0 2) 15) then some (w, n) else none

/-- R38, Table OBS-1: the symbols FEC has corrected in a flit are counted, whether or not its CRC holds. -/
def countFec (s : State) (p : Fin 24) (gen : Nat) (bytes : List Byte) : State :=
  match fecDecode gen bytes with | some (_, n) => if n = 0 then s else countEv s 0x0205 p {} n | none => s

/-- R29: a flit received in VERIFY: 2^18 consecutive good flits with a corrected-symbol ratio below 10^-5 pass it. -/
def verifyFlit (s : State) (p : Fin 24) (bytes : List Byte) : State :=
  let gen := (s.port p).link.gen
  match goodFlit gen bytes with
  | none => updLink (countFec s p gen bytes) p fun x => { x with verifyRun := 0, verifyFixed := 0 }
  | some (_, n) =>
    let s1 := updLink (countFec s p gen bytes) p fun x => { x with verifyRun := x.verifyRun + 1, verifyFixed := x.verifyFixed + n }
    let x := (s1.port p).link
    if !x.passed && decide (2 ^ 18 ≤ x.verifyRun) && decide (x.verifyFixed * 100000 < x.verifyRun * flitLen gen) then verifyPass p s1 else s1

/-- R38 steps 3 to 5: a good flit: an idle one, one that is accepted, a duplicate, or one that lies ahead. -/
def takeFlit (s : State) (p : Fin 24) (w : List Byte) : State :=
  let gen := (s.port p).link.gen
  let hdr := leAt w 0 2
  let seq := hdr % 1024
  let cont := bits hdr 13 11
  let eseq := (s.port p).rx.eseq
  if !(bitOf hdr 10) then takeIdle s p seq cont (flitSlots gen w)
  else if seq = eseq then acceptFlit s p w cont (flitSlots gen w)
  else if (eseq + 1024 - seq) % 1024 ≤ 512 then s
  else sendNak s p

/-- FLIT_RECEIVED (R38): the bytes are those of the lanes, descrambled first (R27); a flit of another length is a flit error. -/
def flitReceived (p : Fin 24) (bytes : List Byte) (s : State) : State :=
  let x := (s.port p).link
  if !(isOlk s p) then s
  else if x.state == .verify then
    (if bytes.length ≠ flitLen x.gen then updLink s p fun x => { x with verifyRun := 0, verifyFixed := 0 }
     else let u := unscramble s p bytes
          verifyFlit u.2 p u.1)
  else if x.state != .active then s
  else if bytes.length ≠ flitLen x.gen then flitError s p
  else
    let u := unscramble s p bytes
    match goodFlit x.gen u.1 with
    | none => flitError (countFec u.2 p x.gen u.1) p
    | some (w, _) => takeFlit (countFec u.2 p x.gen u.1) p w

/-- FLIT_RECEIVED (R38). -/
def execFlitReceived (port : Fin 24) (bytes : List Byte) (s : State) : Host.Outcome State Fault Refusal := runCmd (flitReceived port bytes) s

/-! ## Link keys (R393, R394) -/

/-- R382: the session is established. -/
def sessionOf (s : State) (id : Nat) : Option SpdmSession := s.sec.sessions.find? fun x => x.id == id && x.established

/-- R393: the response to a link-key message, in its session. -/
def keyReply (s : State) (session op : Nat) (p : Fin 24) (status : Nat) (extra : List Byte := []) : State :=
  match sessionOf s session with
  | some x => s.emit (.spdm x.inst (leBytes 1 (op + 0x80) ++ leBytes 1 p.val ++ leBytes 1 status ++ extra))
  | none => s

/-- R393: STATUS of an operation on a port's keys: 1 no key can be held, 2 another session owns them. -/
def keyStatus (s : State) (session : Nat) (p : Fin 24) : Nat :=
  if personality s p != .peerOlk || cfgGet s keyEncAlg p == 0 then 1
  else match (s.port p).enc.owner with | some o => if o = session then 0 else 2 | none => 0

/-- A key of a direction and phase set. -/
def setKey (e : PortEnc) (receive phase : Bool) (k : Option LinkKey) : PortEnc :=
  match receive, phase with
  | false, false => { e with tx0 := k } | false, true => { e with tx1 := k } | true, false => { e with rx0 := k } | true, true => { e with rx1 := k }

/-- A link-key message is carried in an established session only. -/
def inSession (session : Nat) (f : State → State) (s : State) : State := if (sessionOf s session).isSome then f s else s

/-- KEY_PROG (R393): a key and IV_SEED loaded; SM4-GCM uses the low 16 bytes of KEY. -/
def keyProg (session : Nat) (p : Fin 24) (receive phase : Bool) (key iv : Nat) (s0 : State) : State :=
  let s := algTakes s0 p
  let st := keyStatus s session p
  let x := s.port p
  let st1 := if st = 0 ∧ x.enc.on ∧ x.tx.phase = phase then 3 else st
  if st1 ≠ 0 then keyReply s session 1 p st1
  else
    let k : LinkKey := { key := if cfgGet s keyEncAlg p = 1 then key % 2 ^ 128 else key % 2 ^ 256, iv := iv % 2 ^ 96 }
    keyReply (s.updPort p fun x => { x with enc := { setKey x.enc receive phase (some k) with owner := some session } }) session 1 p 0

/-- KEY_PROG (R393). -/
def execKeyProg (session : Nat) (port : Fin 24) (receive : Bool) (phase : Bool) (key : Nat) (iv : Nat) (s : State) :
    Host.Outcome State Fault Refusal := runCmd (inSession session (keyProg session port receive phase key iv)) s

/-- R394: a port never runs in clear while it holds usable keys, and never encrypts without one: a link that does is taken down
(assumption 69). -/
def keepSecret (s : State) (p : Fin 24) : State :=
  let x := s.port p
  let up := match x.link.state with | .active | .retrain => true | _ => false
  if up && holdsKeys x.enc != x.enc.on then linkDown s p .detect else s

/-- KEY_GO (R393, R394): a phase whose two directions are loaded becomes usable; on an encrypted link the transmitter switches to it
at the next run boundary. -/
def keyGo (session : Nat) (p : Fin 24) (phase : Bool) (s0 : State) : State :=
  let s := algTakes s0 p
  let st := keyStatus s session p
  let x := s.port p
  if st ≠ 0 then keyReply s session 2 p st
  else match keyOf x.enc false phase, keyOf x.enc true phase with
    | some t, some r =>
      let e := setKey (setKey x.enc false phase (some { t with usable := true })) true phase (some { r with usable := true })
      keepSecret (keyReply (s.updPort p fun x => { x with
        enc := e, tx := { x.tx with phaseNext := x.enc.on && x.tx.phase != phase } }) session 2 p 0) p
    | _, _ => keyReply s session 2 p 0

/-- KEY_GO (R394). -/
def execKeyGo (session : Nat) (port : Fin 24) (receive : Bool) (phase : Bool) (s : State) : Host.Outcome State Fault Refusal :=
  let _ := receive
  runCmd (inSession session (keyGo session port phase)) s

/-- KEY_QUERY (R393): response byte 3. -/
def keyQuery (session : Nat) (p : Fin 24) (s : State) : State :=
  let st := keyStatus s session p
  let x := s.port p
  let e := x.enc
  let b := b2n e.tx0.isSome + 2 * b2n e.tx1.isSome + 4 * b2n e.rx0.isSome + 8 * b2n e.rx1.isSome + 16 * b2n e.on + 32 * b2n x.tx.phase +
    64 * b2n x.link.waitKeys
  keyReply s session 3 p st (leBytes 1 b)

/-- KEY_QUERY (R393). -/
def execKeyQuery (session : Nat) (port : Fin 24) (s : State) : Host.Outcome State Fault Refusal := runCmd (inSession session (keyQuery session port)) s

/-- KEY_ERASE (R393, R394): every key of the port is erased, and it waits for keys no longer; a link that encrypted goes down. -/
def keyErase (session : Nat) (p : Fin 24) (s : State) : State :=
  let st := keyStatus s session p
  if st ≠ 0 then keyReply s session 4 p st
  else
    let s1 := s.updPort p fun x => { x with
      enc := { x.enc with tx0 := none, tx1 := none, rx0 := none, rx1 := none, owner := none }, tx := { x.tx with phaseNext := false } }
    keyReply (updLink (keepSecret s1 p) p fun x => { x with waitKeys := false }) session 4 p 0

/-- KEY_ERASE (R393). -/
def execKeyErase (session : Nat) (port : Fin 24) (s : State) : Host.Outcome State Fault Refusal := runCmd (inSession session (keyErase session port)) s

end Sys2Proof.Machine
end

