-- ==== Sys2Proof/Machine/CxlMem.lean ====
section
/-! DEFINITION. CXL.mem messages of a CXL host (R191, R192, R194 to R199): their translation into the message set of the
home. -/

namespace Sys2Proof.Machine
open Sys2Proof

/-! ## Credits and the link (R191) -/

/-- R191: one message of a class received: it uses a credit that the host held. -/
def cxlTake (c : CxlCredit) : Option CxlCredit :=
  if c.avail = 0 then none else some (cxlUse c)

/-- R191: an M2S message of a class (0 Req, 1 RwD, 2 BIRsp) received; none when the host held no credit. -/
def cxlSpend (c : PortCxl) (cls : Nat) : Option PortCxl :=
  match cls with
  | 0 => (cxlTake c.m2sReq).map fun x => { c with m2sReq := x }
  | 1 => (cxlTake c.m2sRwd).map fun x => { c with m2sRwd := x }
  | _ => (cxlTake c.m2sBiRsp).map fun x => { c with m2sBiRsp := x }

/-- R191: a class whose receive buffer has n places, all of them credits that the partner holds. -/
def cxlPool (n : Nat) : CxlCredit := { pool := n, avail := n }

/-- Table CXL-1: the lanes of a link of a width; lane reversal is not supported. -/
def cxlLanes (width : Nat) : BitVec 4 := if width = 4 then 15 else if width = 2 then 3 else 1

/-- Table CXL-1: what the host and the port negotiate, which is left free: the rate, and the width. -/
def cxlLink (pers : Personality) (rate width : Nat) (c : PortCxl) : PortCxl :=
  let r := if pers == .peerCxl3 && rate % 2 == 0 then 64 else 32
  { c with rate := r, flit := if r = 64 then 256 else 68, laneMask := cxlLanes (if width % 3 = 0 then 4 else if width % 3 = 1 then 2 else 1) }

/-- R190, R191: the CXL link of a port comes up; the spec states no size for the pools of the classes that the port receives, so they
are free values. -/
def cxlLinkUp (s : State) (p : Fin 24) : State :=
  if (s.port p).cxl.up then s
  else
    let (a, s1) := freshNat s
    let (b, s2) := freshNat s1
    let (c, s3) := freshNat s2
    if isMem s p then
      s3.updPort p fun x => { x with cxl := { x.cxl with up := true, s2mNdr := cxlPool a, s2mDrs := cxlPool b, s2mBiSnp := cxlPool c } }
    else
      let (r, s4) := freshNat s3
      let (w, s5) := freshNat s4
      s5.updPort p fun x => { x with cxl := cxlLink (personality s p) r w { x.cxl with
        up := true, m2sReq := cxlPool a, m2sRwd := cxlPool b, m2sBiRsp := cxlPool c } }

/-! ## Translation (R192, R195, R196) -/

/-- R195: the fabric byte address of a host physical address of a port. -/
def fabricOfHpa (c : PortCxl) (a : Nat) : Option Nat :=
  c.layout.bind fun l => (dpaOfHpa c.decoders.toList 0 a).bind fun d => fabricOfDpa l d

/-- R191: the lowest internal TAG that the tag map does not hold. -/
def freeCxlTag (c : PortCxl) : Nat := ((List.range 4096).find? fun i => !(c.tagMap.any (·.1 == i))).getD 0

/-- R192: the answer of a port that has no binding, or no address for the message: MemData-NXM or poisoned MemData to a
Req, Cmp to a RwD, whose data is discarded. -/
def cxlUnbound (s : State) (p : Fin 24) (cls tag : Nat) : State :=
  let m : OutMsg := { op := if cls = 0 then .cmpErr else .wrAck, dest := 255, tag := tag, laddr := 0, aop := 2,
                      epochs := epochsFor s p 255, reqOp := if cls = 0 then 0x12 else 0x18, arrived := s.obs.cycles, sumped := true }
  freeRx (pushCmp s p m) p 0 (if cls = 0 then 1 else 5)

/-- R196, R221: a translated message reaches the crossbar, or is sumped. -/
def cxlIngress (s : State) (p : Fin 24) (op : Op) (h : Hdr) (d : Line) (be : Mask) : State :=
  let k := sliceOf h.laddr
  let s1 := countEv s 0x0201 p { opcode := some (opCode op), agent := some h.src } (opSlots op)
  let s2 := traceRecord s1 1 { line := some h.laddr, opcode := opCode op, agent := some h.src, part := partOf s h.laddr }
    (traceMsgBody (hdrNat op h) p k (partOf s h.laddr))
  let m := rxMsg s2 p op h d be
  if activeOn s2 h.src p then takeArrived (enqueueMsg s2 p m) p h.laddr op (s.port p).rx.position else sumpIn s2 p op m

/-- R191, R192, R196: a Req (class 0) or RwD (class 1) that translates to a message of the home. While the tag map is full the
port takes none. A MemWrPtl whose byte enables are all 0 passes as a WR_PART of no byte (DESIGN CHOICE, assumption 76). -/
def cxlRequest (p : Fin 24) (cls : Nat) (m : CxlMsg) (op : Op) (attr : BitVec 8) (s : State) : State :=
  if 4096 ≤ (s.port p).cxl.tagMap.length then s
  else
    match cxlSpend (s.port p).cxl cls with
    | none => protocolError s p
    | some c =>
      let tag := freeCxlTag c
      let s1 := s.updPort p fun x => { x with cxl := { c with tagMap := c.tagMap ++ [(tag, m.tag)] } }
      match c.bound, fabricOfHpa c m.addr with
      | some a, some f =>
        let line := f / 64
        let s2 := if op == .wbDirty then s1.updPort p fun x => { x with cxl := { x.cxl with wbOut := x.cxl.wbOut ++ [(line, tag)] } } else s1
        let h : Hdr := { src := a, dest := ownIndex s, tag := tag, laddr := line, attr := attr, size := if opHasData op then 6 else 0 }
        let metaw : Mask := if opMaskForm op then m.be else if m.poison then 1 else 0
        cxlIngress s2 p op h m.data metaw
      | _, _ => cxlUnbound s1 p cls tag

/-- R196, R203: a CXL.mem message on a port of a CXL host: f on PEER_CXL3, g on PEER_CXL2, and nothing elsewhere. A MAC that fails
takes the link down with a MAC_FAIL record, and an opcode outside Table CXL-3 as R78 gives. -/
def cxlOn (p : Fin 24) (m : CxlMsg) (f g : State → State) (s : State) : State :=
  let on := fun (f : State → State) (s : State) =>
    if ideOn (s.port p).cxl && !m.mac then macFails s p else if m.other then protocolError s p else f s
  match personality s p with
  | .peerCxl3 => on f (cxlLinkUp s p)
  | .peerCxl2 => on g (cxlLinkUp s p)
  | _ => s

/-- Table CXL-3: the link of the port goes down. -/
def cxlBad (p : Fin 24) (s : State) : State := protocolError s p

/-- Table CXL-3: ATTR of a RwD. -/
def cxlAttr (m : CxlMsg) : BitVec 8 := if m.poison then 4 else 0

/-- R196: the translation of a MemRd on PEER_CXL3, by MetaValue; MetaField NoOp reads without tracking. -/
def memRdOp (m : CxlMsg) : Op × BitVec 8 :=
  if m.metaField = 3 then (.rdOnce, 0)
  else match m.metaValue with | 2 => (.rdOwn, 0) | 3 => (.rdShared, 1) | _ => (.rdOnce, 0)

/-- MEMRD (R196). -/
def execCxlMemRd (port : Fin 24) (m : CxlMsg) (s : State) : Host.Outcome State Fault Refusal :=
  runCmd (cxlOn port m (cxlRequest port 0 m (memRdOp m).1 (memRdOp m).2) (cxlRequest port 0 m .rdOnce 0)) s

/-- MEMRDDATA (R196). -/
def execCxlMemRdData (port : Fin 24) (m : CxlMsg) (s : State) : Host.Outcome State Fault Refusal :=
  runCmd (cxlOn port m (cxlRequest port 0 m .rdShared 1) (cxlRequest port 0 m .rdOnce 0)) s

/-- R196: MemSpecRd is dropped; its credit returns. -/
def memSpecRd (p : Fin 24) (s : State) : State :=
  match cxlSpend (s.port p).cxl 0 with
  | none => protocolError s p
  | some c => freeRx (s.updPort p fun x => { x with cxl := c }) p 0 1

/-- MEMSPECRD (R196). -/
def execCxlMemSpecRd (port : Fin 24) (m : CxlMsg) (s : State) : Host.Outcome State Fault Refusal :=
  runCmd (cxlOn port m (memSpecRd port) (memSpecRd port)) s

/-- R196: MemInv and MemInvNT on PEER_CXL3: MemInv with MetaValue A upgrades, either with I flushes; no other is listed. -/
def memInv (p : Fin 24) (m : CxlMsg) (s : State) : State :=
  match m.metaValue with
  | 2 => if m.nt then protocolError s p else cxlRequest p 0 m .upgrade 0 s
  | 0 => cxlRequest p 0 m .flushLine 0 s
  | _ => protocolError s p

/-- MEMINV (R196). -/
def execCxlMemInv (port : Fin 24) (m : CxlMsg) (s : State) : Host.Outcome State Fault Refusal :=
  runCmd (cxlOn port m (memInv port m) (cxlBad port)) s

/-- MEMCLNEVCT (R196). -/
def execCxlMemClnEvct (port : Fin 24) (m : CxlMsg) (s : State) : Host.Outcome State Fault Refusal :=
  runCmd (cxlOn port m (cxlRequest port 0 m .evictClean 0) (cxlBad port)) s

/-- R196: MemWr, by SnpType: NoOp writes back on PEER_CXL3, SnpInv writes. -/
def memWr (p : Fin 24) (m : CxlMsg) (noOp : Op) (s : State) : State :=
  match m.snpType with
  | 0 => cxlRequest p 1 m noOp (cxlAttr m) s
  | 3 => cxlRequest p 1 m .wrFull (cxlAttr m) s
  | _ => protocolError s p

/-- MEMWR (R196). -/
def execCxlMemWr (port : Fin 24) (m : CxlMsg) (s : State) : Host.Outcome State Fault Refusal :=
  runCmd (cxlOn port m (memWr port m .wbDirty) (memWr port m .wrFull)) s

/-- MEMWRPTL (R196). -/
def execCxlMemWrPtl (port : Fin 24) (m : CxlMsg) (s : State) : Host.Outcome State Fault Refusal :=
  runCmd (cxlOn port m (cxlRequest port 1 m .wrPart (cxlAttr m)) (cxlRequest port 1 m .wrPart (cxlAttr m))) s

/-! ## Back-invalidate (R198, R199) -/

/-- R198: BIConflict is answered with BIConflictAck, behind every message queued to the host for that line. Before the binding is
accepted it is answered with Cmp, as every RwD (R192). -/
def biConflict (p : Fin 24) (m : CxlMsg) (s : State) : State :=
  if (s.port p).cxl.bound.isNone then cxlRequest p 1 m .wrFull 0 s
  else match cxlSpend (s.port p).cxl 1 with
  | none => protocolError s p
  | some c =>
    let line := ((fabricOfHpa c m.addr).getD 0) / 64
    let ahead := if (fabricOfHpa c m.addr).isSome then (s.port p).tx.cmpQ.countP fun o => o.laddr == line else 0
    let s1 := s.updPort p fun x => { x with cxl := { c with conflicts := c.conflicts ++ [(line, m.tag, ahead)] } }
    let s2 := freeRx s1 p 1 5
    answerConflicts p (s2.port p).cxl.conflicts.length s2

/-- BICONFLICT (R198). -/
def execCxlBiConflict (port : Fin 24) (m : CxlMsg) (s : State) : Host.Outcome State Fault Refusal :=
  runCmd (cxlOn port m (biConflict port m) (cxlBad port)) s

/-- R199: the line a BIRsp answers: that of the BISnp whose TAG it carries, else that of its address. -/
def biLine (c : PortCxl) (m : CxlMsg) : Nat :=
  match c.biSnp.find? (·.2 == m.tag) with | some e => e.1 | none => ((fabricOfHpa c m.addr).getD 0) / 64

/-- R199: a BIRsp is forwarded at once, or held while WB_ACK of an earlier write-back of its line has not been sent. -/
def biRsp (p : Fin 24) (m : CxlMsg) (s : State) : State :=
  if 1 < m.snpType then protocolError s p
  else
    match cxlSpend (s.port p).cxl 2 with
    | none => protocolError s p
    | some c =>
      let s1 := s.updPort p fun x => { x with cxl := c }
      let op : Op := if m.snpType = 0 then .rspI else .rspS
      let line := biLine c m
      match c.bound with
      | none => freeRx s1 p 3 1
      | some a =>
        if !(activeOn s1 a p) then sumpIn s1 p op (rxMsg s1 p op { src := a, dest := ownIndex s, tag := m.tag, laddr := line } 0 0)
        else if c.wbOut.any (·.1 == line) then
          s1.updPort p fun x => { x with cxl := { x.cxl with heldBi := x.cxl.heldBi ++ [(line, op)] } }
        else takeArrived (forwardBiRsp s1 p op line a) p line op (s.port p).rx.position

/-- BIRSP (R199). -/
def execCxlBiRsp (port : Fin 24) (m : CxlMsg) (s : State) : Host.Outcome State Fault Refusal :=
  runCmd (cxlOn port m (biRsp port m) (cxlBad port)) s

end Sys2Proof.Machine
end

