-- ==== Sys2Proof/Machine/Firmware.lean ====
section
/-! DEFINITION. Firmware images and slots (R385 to R391). -/

namespace Sys2Proof.Machine
open Sys2Proof

/-- The image of a flash slot: 0 slot A, 1 slot B. -/
def slotImage (s : State) (n : Nat) : Option FwImage := if n = 0 then s.sec.slotA else s.sec.slotB

/-- A flash slot programmed, or made invalid. -/
def setSlot (s : State) (n : Nat) (im : Option FwImage) : State :=
  if n = 0 then { s with sec := { s.sec with slotA := im } } else { s with sec := { s.sec with slotB := im } }

/-- R369: SVN_MIN of the root. -/
def svnMin (s : State) : Nat := match rootValue s with | some r => r.svnMin | none => 0

/-- R369: BOOT_PREF of the root. -/
def bootPref (s : State) : Nat := match rootValue s with | some r => r.bootPref | none => 255

/-- R386: the first check an image fails, as the result of Table LED-4; 0 when it verifies. A flash read error is result 6. -/
def imageResult (minimum : Nat) (im : FwImage) : Nat :=
  if !im.readOk then 6
  else if !im.magicOk || im.pages == 0 || decide (8000 < im.pages) || im.len != 4096 * (1 + im.pages) + 32 * im.pages + 128 ||
    decide (2 ^ 25 < im.len) || im.resident == 0 || decide (min 48 im.pages < im.resident) then 1
  else if !im.keyOk then 2
  else if im.svn < minimum then 3
  else if !im.digestOk then 4
  else if !im.sigOk then 5
  else 0

/-- R386: the result of a slot; one that holds no image fails at its header. -/
def slotResult (s : State) (n : Nat) : Nat := match slotImage s n with | some im => imageResult (svnMin s) im | none => 1

/-- R386: the slot verifies. -/
def slotVerifies (s : State) (n : Nat) : Bool := slotResult s n == 0

/-- R388, Table HOST-5: FW_VERSION of a slot; 0 when it does not verify. -/
def slotVersion (s : State) (n : Nat) : Nat :=
  if slotVerifies s n then (match slotImage s n with | some im => im.version | none => 0) else 0

/-- R385: the header of an image, read from its bytes. -/
def imageHeader (bs : List Byte) : FwImage :=
  { version := leAt bs 8 4, svn := leAt bs 12 4, pages := leAt bs 16 4, resident := leAt bs 20 4, len := leAt bs 4 4,
    liveAbi := leAt bs 28 2, live := bitOf (leAt bs 30 2) 0, magicOk := bs.take 4 == [0x45, 0x46, 0x57, 0x31],
    keyOk := Config.imageKeyOk bs, digestOk := Config.imageDigestOk bs, sigOk := Config.imageSigned bs }

/-- R369, R371, Table LED-4: SVN_MIN or BOOT_PREF changes: the root is rewritten and a SECURITY record made. -/
def securityChange (s : State) (f : Root → Root) : State :=
  let s1 := rootWrite s f
  ledgerRecord s1 6 (securityBody ((rootValue s1).getD {}))

/-- R388: SVN_MIN is raised to the SVN of the running image when that exceeds it. -/
def raiseSvn (s : State) : State :=
  match s.sec.running with
  | some im => if svnMin s < im.svn then securityChange s fun r => { r with svnMin := im.svn } else s
  | none => s

/-- BOOT_PREF changes. -/
def setBootPref (s : State) (n : Nat) : State := if bootPref s = n then s else securityChange s fun r => { r with bootPref := n }

/-- Table LED-4: FW_UPDATE of a kind and slot, and FW_UPDATES advances (Table LED-3). -/
def fwUpdateRecord (s : State) (kind slot : Nat) : State :=
  let im := (slotImage s slot).getD {}
  stalAdd (ledgerRecord s 0x0E (leBytes 1 kind ++ leBytes 1 slot ++ leBytes 4 im.version ++ leBytes 4 im.svn)) 8 0 1

end Sys2Proof.Machine
end

