-- ==== Sys2Proof/Machine/CxlPort.lean ====
section
/-! DEFINITION. CXL ports apart from CXL.mem messages: binding (R192), the DPA layout and HDM decoders (R194, R195), credits
(R191), IDE keys (R203, R395), and the device as host to an expander (R201, R202). -/

namespace Sys2Proof.Machine
open Sys2Proof

/-- A port of a CXL host. -/
def isCxlPeer (s : State) (p : Fin 24) : Bool := isPeer s p && !(isOlk s p)

/-! ## Binding (R192) -/

/-- R192: the agent ID that the binding table gives a port of a CXL host, when it is one the personality takes. -/
def cxlAgent (s : State) (p : Fin 24) : Option Nat :=
  match portIds s p with
  | [a] =>
    let caching := personality s p == .peerCxl3
    let place := if caching then decide (a < 64) else decide (64 ≤ a ∧ a ≤ 254)
    if place && bindReason s p a caching false == 0 then some a else none
  | _ => none

/-- R192, R219: the host sets or clears Mem_Enable. Setting it, while the link-up has no binding yet, checks the binding and accepts
it; an ID withdrawn from this link-up is not bound again in it. -/
def cxlMemEnable (p : Fin 24) (enable : Bool) (s : State) : State :=
  if !(isCxlPeer s p) then s
  else
    let s1 := (cxlLinkUp s p).updPort p fun x => { x with cxl := { x.cxl with memEnable := enable } }
    if !enable || (s1.port p).cxl.bound.isSome then s1
    else match cxlAgent s1 p with
      | some a => (s1.updBind a fun b => { b with status := .active, failed := false }).updPort p fun x => { x with cxl := { x.cxl with bound := some a } }
      | none => s1

/-- CXL_MEM_ENABLE (R192). -/
def execCxlMemEnable (port : Fin 24) (enable : Bool) (s : State) : Host.Outcome State Fault Refusal := runCmd (cxlMemEnable port enable) s

/-! ## The DPA layout and HDM decoders (R194, R195) -/

/-- R194: the windows of the partitions of which an agent is a member, in ascending base: partition, base, size in bytes. -/
def dpaJoin (s : State) (a : Nat) : List (Nat × Nat × Nat) :=
  ((partNumbers.filter fun q => partExists s q && bitOf (cfgGet s keyMembers q) a).map fun q =>
    (q, cfgGet s keyWinBase q, cfgGet s keyWinSize q * 2 ^ 30)).mergeSort fun x y => decide (x.2.1 ≤ y.2.1)

/-- The size of a DPA space. -/
def dpaSize (l : List (Nat × Nat × Nat)) : Nat := (l.map (·.2.2)).sum

/-- R194: the DPA space of a port: the one joined at the commit of decoder 0, or the one a join would give now. -/
def dpaSpace (s : State) (p : Fin 24) : List (Nat × Nat × Nat) :=
  match (s.port p).cxl.layout with
  | some l => l
  | none => match (s.port p).cxl.bound with | some a => dpaJoin s a | none => []

/-- R195: the size of the range that the CXL Device DVSEC reports. -/
def dvsecSize (s : State) (p : Fin 24) : Nat := dpaSize (dpaSpace s p) / 2 ^ 28 * 2 ^ 28

/-- R195: the commit of a decoder that is not locked. -/
def hdmCommit (p : Fin 24) (n : Fin 4) (base size ways skip : Nat) (s : State) : State :=
  let c := (s.port p).cxl
  if !(isCxlPeer s p) || c.decoders[n].committed then s
  else
    let space := if n.val = 0 then (match c.bound with | some a => dpaJoin s a | none => []) else c.layout.getD []
    let before := c.decoders.toList.take n.val
    let bad := ways != 0 || skip != 0 || !(before.all (·.committed)) || decide (dpaSize space < (before.map (·.size)).sum + size)
    let d : HdmDecoder := { base := base, size := size, committed := !bad, error := bad }
    s.updPort p fun x => { x with cxl := { x.cxl with
      decoders := x.cxl.decoders.set n d, layout := if n.val = 0 && !bad then some space else x.cxl.layout } }

/-- HDM_DECODER_COMMIT (R195). -/
def execHdmDecoderCommit (port : Fin 24) (decoder : Fin 4) (base size ways skip : Nat) (s : State) : Host.Outcome State Fault Refusal :=
  runCmd (hdmCommit port decoder base size ways skip) s

/-- R194, R195: a CXL reset unlocks the decoders and ends the DPA layout. -/
def cxlReset (p : Fin 24) (s : State) : State :=
  if isCxlPeer s p then s.updPort p fun x => { x with cxl := { x.cxl with decoders := Vector.replicate 4 {}, layout := none } } else s

/-- CXL_RESET (R195). -/
def execCxlReset (port : Fin 24) (s : State) : Host.Outcome State Fault Refusal := runCmd (cxlReset port) s

/-! ## Credits and keys -/

/-- R191: the partner returns credits of the classes the port sends: an expander those of M2S Req, RwD and BIRsp; the host those of S2M
NDR, DRS and BISnp, and SNP messages and BIConflictAcks that waited for them leave (R13, R198). -/
def cxlCredits (p : Fin 24) (ndr drs biSnp : Nat) (s : State) : State :=
  if personality s p == .memCxl then
    (if (s.port p).cxl.up then s.updPort p fun x => { x with cxl := { x.cxl with
      m2sReq := cxlGive x.cxl.m2sReq ndr, m2sRwd := cxlGive x.cxl.m2sRwd drs, m2sBiRsp := cxlGive x.cxl.m2sBiRsp biSnp } }
     else s)
  else if !(isCxlPeer s p) then s
  else
    let s1 := (cxlLinkUp s p).updPort p fun x => { x with cxl := { x.cxl with
      s2mNdr := cxlGive x.cxl.s2mNdr ndr, s2mDrs := cxlGive x.cxl.s2mDrs drs, s2mBiSnp := cxlGive x.cxl.s2mBiSnp biSnp } }
    drainSnp (answerConflicts p (s1.port p).cxl.conflicts.length s1) p

/-- CXL_CREDIT_RETURN (R191). -/
def execCxlCreditReturn (port : Fin 24) (ndr drs biSnp : Nat) (s : State) : Host.Outcome State Fault Refusal :=
  runCmd (cxlCredits port ndr drs biSnp) s

/-- R203, R395: the CXL host programs the key of a stream and direction in a session on the port's own DOE. -/
def ideKm (p : Fin 24) (session stream : Nat) (receive : Bool) (key : Nat) (s : State) : State :=
  let here := match sessionOf s session with | some x => x.inst == 2 + p.val | none => false
  if personality s p == .peerCxl3 && here && decide (stream < 2) then
    s.updPort p fun x => { x with cxl := { x.cxl with
      ideKeys := (x.cxl.ideKeys.filter fun e => !(e.1 == stream && e.2.1 == b2n receive)) ++ [(stream, b2n receive, key)] } }
  else s

/-- IDE_KM (R395). -/
def execIdeKm (port : Fin 24) (session stream : Nat) (receive : Bool) (key : Nat) (s : State) : Host.Outcome State Fault Refusal :=
  runCmd (ideKm port session stream receive key) s

/-! ## The device as host to an expander (R201, R202) -/

/-- R203, R395: keys from the random source for both directions of both streams, programmed at both ends. -/
def expanderKeys (s : State) (p : Fin 24) : State :=
  [(0, 0), (0, 1), (1, 0), (1, 1)].foldl (fun s e =>
    let (k, s1) := freshNat s
    (s1.updPort p fun x => { x with cxl := { x.cxl with ideKeys := x.cxl.ideKeys ++ [(e.1, e.2, k)] } }).emit
      (.cxl p "IDE_KM KEY_PROG" (2 * e.1 + e.2) 0 0 false 0)) s

/-- R201: an access of the expander over CXL.io. -/
def expanderIo (s : State) (p : Fin 24) (name : String) (arg : Nat := 0) : State := s.emit (.cxl p name 0 arg 0 false 0)

/-- R201: an expander that does not serve is refused, which is recorded; a range it held is released. -/
def refuseExpander (s : State) (p : Fin 24) : State :=
  let s1 := releaseRange s p
  offerRefused (logClass (s1.updPort p fun x => { x with mem := { x.mem with desc := none, taken := false } }) 0x30 1 p)

/-- R201: decoder 0 of the expander is programmed at HPA 0, 1-way, over a size, and its commit asked for. -/
def programDecoder (s : State) (p : Fin 24) (size : Nat) : State :=
  expanderIo (expanderIo (expanderIo (expanderIo s p "HDM decoder 0 base") p "HDM decoder 0 size" size) p "HDM decoder 0 ways" 0) p "HDM decoder 0 commit"

/-- R201, R395: an expander is enumerated after a link-up: its DVSEC range is read and it is identified, its chain digest recorded, keys
programmed when it offers IDE, its decoder programmed, committed and locked, Mem_Enable set, and it is offered to the pool. One
that reports HDM-DB, has no volatile capacity, or fails the commit is refused. -/
def enumerate (p : Fin 24) (d : ExpanderDesc) (s : State) : State :=
  if personality s p != .memCxl then s
  else
    let gib := d.capacity / 2 ^ 30
    let s1 := (cxlLinkUp s p).updPort p fun x => { x with
      cxl := { x.cxl with rate := d.rate, flit := if d.rate = 64 then 256 else 68, laneMask := cxlLanes d.width, memEnable := false, ideKeys := [],
                          decoders := x.cxl.decoders.set 0 {} },
      mem := { x.mem with chainDigest := d.digest } }
    let s2 := expanderIo (expanderIo (if d.ide then expanderKeys s1 p else s1) p "DVSEC range read") p "Identify Memory Device"
    if d.hdmDb || gib == 0 then refuseExpander s2 p
    else
      let s3 := programDecoder s2 p (gib * 2 ^ 30)
      if !d.commits then
        refuseExpander (s3.updPort p fun x => { x with cxl := { x.cxl with decoders := x.cxl.decoders.set 0 { size := gib * 2 ^ 30, error := true } } }) p
      else
        let s4 := (expanderIo s3 p "Mem_Enable" 1).updPort p fun x => { x with cxl := { x.cxl with
          memEnable := true, decoders := x.cxl.decoders.set 0 { base := 0, size := gib * 2 ^ 30, committed := true } } }
        settleAll (offerModule s4 p { mode := 1, capGiB := gib, maker := d.maker, product := d.product }).1

/-- EXPANDER_ENUMERATION (R201). -/
def execExpanderEnumeration (port : Fin 24) (desc : ExpanderDesc) (s : State) : Host.Outcome State Fault Refusal :=
  runCmd (enumerate port desc) s

/-- R202: the media errors among the event records read from an expander: corrected (0) and uncorrected, by MADDR. -/
def pollEvents (p : Fin 24) (records : List (Nat × Nat)) (s : State) : State :=
  if personality s p != .memCxl || !(s.port p).cxl.up then s
  else records.foldl (fun s r => logClass s (if r.1 = 0 then 0x01 else 0x02) 1 p (some (3, r.2))) s

/-- EXPANDER_EVENT_POLL (R202). -/
def execExpanderEventPoll (port : Fin 24) (records : List (Nat × Nat)) (s : State) : Host.Outcome State Fault Refusal :=
  runCmd (pollEvents port records) s

end Sys2Proof.Machine
end

