-- ==== Sys2Proof/Machine/CxlMailbox.lean ====
section
/-! DEFINITION. The memory device mailbox of a CXL host's port (R200, Table CXL-5). The spec names the commands and what they
report; their payload layouts and return codes are those of CXL 3.1 (PRESUMED, assumption 40). -/

namespace Sys2Proof.Machine
open Sys2Proof

/-- A response of the mailbox of a port: return code 0 Success, 2 Invalid Input, 3 Unsupported, 0xE Invalid Handle, 0x16 Invalid
Payload Length. -/
def cxlReply (s : State) (p : Fin 24) (code : Nat) (payload : List Byte := []) : State := s.emit (.cxlMailbox p code payload)

/-- R200: only a port of a CXL host answers. -/
def onMailbox (p : Fin 24) (f : State → State) (s : State) : State := if isCxlPeer s p then f s else s

/-- A payload of the length a command asks for. -/
def needLen (p : Fin 24) (payload : List Byte) (n : Nat) (f : State → State) (s : State) : State :=
  if payload.length = n then f s else cxlReply s p 0x16

/-- The log of a number: 0 Informational, 1 Warning, 2 Failure, 3 Fatal. -/
def evLog (c : PortCxl) (n : Nat) : List CxlEvent := match n with | 0 => c.evInfo | 1 => c.evWarn | 2 => c.evFail | _ => c.evFatal

/-- The log of a number replaced. -/
def setEvLog (c : PortCxl) (n : Nat) (l : List CxlEvent) : PortCxl :=
  match n with
  | 0 => { c with evInfo := l } | 1 => { c with evWarn := l } | 2 => { c with evFail := l } | _ => { c with evFatal := l }

/-- An event record: its header and the address it concerns. -/
def eventBytes (e : CxlEvent) : List Byte :=
  padTo 128 (List.replicate 16 0 ++ leBytes 1 128 ++ leBytes 3 0 ++ leBytes 2 e.handle ++ leBytes 2 0 ++ leBytes 8 e.time ++
    List.replicate 16 0 ++ leBytes 8 (e.addr * 64) ++ leBytes 1 e.kind)

/-- GET_EVENT_RECORDS: the records of one log, oldest first. -/
def getEvents (p : Fin 24) (payload : List Byte) (s : State) : State :=
  let n := leAt payload 0 1
  let c := (s.port p).cxl
  if 3 < n then cxlReply s p 2
  else
    let l := evLog c n
    let lost := if n = 2 then c.evLost else (0, 0, 0)
    cxlReply s p 0 (leBytes 1 (b2n (decide (0 < lost.1))) ++ [0] ++ leBytes 2 (min lost.1 65535) ++ leBytes 8 lost.2.1 ++ leBytes 8 lost.2.2 ++
      leBytes 2 l.length ++ List.replicate 10 0 ++ l.flatMap eventBytes)

/-- GET_EVENT_RECORDS (R200). -/
def execGetEventRecords (port : Fin 24) (payload : List Byte) (s : State) : Host.Outcome State Fault Refusal :=
  runCmd (onMailbox port (needLen port payload 1 (getEvents port payload))) s

/-- CLEAR_EVENT_RECORDS: every record of a log, or the oldest ones by their handles. -/
def clearEvents (p : Fin 24) (payload : List Byte) (s : State) : State :=
  let n := leAt payload 0 1
  let l := evLog (s.port p).cxl n
  let handles := (List.range (leAt payload 2 1)).map fun i => leAt payload (6 + 2 * i) 2
  let put := fun (s : State) (l : List CxlEvent) => s.updPort p fun x => { x with cxl :=
    (let c := setEvLog x.cxl n l
     if n = 2 && l.isEmpty then { c with evLost := (0, 0, 0) } else c) }
  if 3 < n then cxlReply s p 2
  else if bitOf (leAt payload 1 1) 0 then cxlReply (put s []) p 0
  else if handles = (l.take handles.length).map (fun e => e.handle % 65536) then cxlReply (put s (l.drop handles.length)) p 0
  else cxlReply s p 0xE

/-- CLEAR_EVENT_RECORDS (R200). -/
def execClearEventRecords (port : Fin 24) (payload : List Byte) (s : State) : Host.Outcome State Fault Refusal :=
  runCmd (onMailbox port (fun s => if payload.length < 6 then cxlReply s port 0x16 else clearEvents port payload s)) s

/-- GET_EVENT_INTERRUPT_POLICY (R200). -/
def execGetEventInterruptPolicy (port : Fin 24) (payload : List Byte) (s : State) : Host.Outcome State Fault Refusal :=
  runCmd (onMailbox port (needLen port payload 0 fun s => cxlReply s port 0 ((s.port port).cxl.evPolicy.map (BitVec.ofNat 8)))) s

/-- SET_EVENT_INTERRUPT_POLICY: a mode per log: none, or MSI/MSI-X, and no other. -/
def setPolicy (p : Fin 24) (payload : List Byte) (s : State) : State :=
  let modes := payload.map fun b => b.toNat
  if modes.any fun m => decide (1 < m % 4) then cxlReply s p 2
  else cxlReply (s.updPort p fun x => { x with cxl := { x.cxl with evPolicy := modes } }) p 0

/-- SET_EVENT_INTERRUPT_POLICY (R200). -/
def execSetEventInterruptPolicy (port : Fin 24) (payload : List Byte) (s : State) : Host.Outcome State Fault Refusal :=
  runCmd (onMailbox port (needLen port payload 4 (setPolicy port payload))) s

/-- GET_FW_INFO: two slots, the active one, no activation capability, and the version of each. -/
def fwInfo (p : Fin 24) (s : State) : State :=
  cxlReply s p 0 (padTo 80 (leBytes 1 2 ++ leBytes 1 (s.sec.active + 1) ++ List.replicate 14 0 ++ leBytes 16 (slotVersion s 0) ++ leBytes 16 (slotVersion s 1)))

/-- GET_FW_INFO (R200). -/
def execGetFwInfo (port : Fin 24) (payload : List Byte) (s : State) : Host.Outcome State Fault Refusal :=
  runCmd (onMailbox port (needLen port payload 0 (fwInfo port))) s

/-- The per-port timestamp now. -/
def cxlTime (s : State) (p : Fin 24) : Nat := (s.port p).cxl.timestamp + (nowNs s - (s.port p).cxl.tsSetAt)

/-- GET_TIMESTAMP (R200). -/
def execGetTimestamp (port : Fin 24) (payload : List Byte) (s : State) : Host.Outcome State Fault Refusal :=
  runCmd (onMailbox port (needLen port payload 0 fun s => cxlReply s port 0 (leBytes 8 (cxlTime s port)))) s

/-- SET_TIMESTAMP: the port's own timestamp; the calendar is unchanged. -/
def setTime (p : Fin 24) (payload : List Byte) (s : State) : State :=
  cxlReply (s.updPort p fun x => { x with cxl := { x.cxl with timestamp := leAt payload 0 8, tsSetAt := nowNs s } }) p 0

/-- SET_TIMESTAMP (R200). -/
def execSetTimestamp (port : Fin 24) (payload : List Byte) (s : State) : Host.Outcome State Fault Refusal :=
  runCmd (onMailbox port (needLen port payload 8 (setTime port payload))) s

/-- The UUID of the Command Effects Log. -/
def celUuid : List Byte := [0x0D, 0xA9, 0xC0, 0xB5, 0xBF, 0x41, 0x4B, 0x78, 0x8F, 0x79, 0x96, 0xB1, 0x62, 0x3B, 0x3F, 0x17]

/-- The Command Effects Log: each supported opcode and its effects. -/
def celLog : List Byte :=
  ([(0x0100, 0), (0x0101, 0x10), (0x0102, 0), (0x0103, 0x08), (0x0200, 0), (0x0300, 0), (0x0301, 0x08), (0x0400, 0), (0x0401, 0),
    (0x4000, 0), (0x4100, 0), (0x4200, 0)] : List (Nat × Nat)).flatMap fun e => leBytes 2 e.1 ++ leBytes 2 e.2

/-- GET_SUPPORTED_LOGS (R200): the Command Effects Log only. -/
def execGetSupportedLogs (port : Fin 24) (payload : List Byte) (s : State) : Host.Outcome State Fault Refusal :=
  runCmd (onMailbox port (needLen port payload 0 fun s =>
    cxlReply s port 0 (leBytes 2 1 ++ List.replicate 6 0 ++ celUuid ++ leBytes 4 celLog.length))) s

/-- GET_LOG: bytes of the Command Effects Log. -/
def getLog (p : Fin 24) (payload : List Byte) (s : State) : State :=
  let off := leAt payload 16 4
  let len := leAt payload 20 4
  if payload.take 16 != celUuid || decide (celLog.length < off + len) then cxlReply s p 2
  else cxlReply s p 0 ((celLog.drop off).take len)

/-- GET_LOG (R200). -/
def execGetLog (port : Fin 24) (payload : List Byte) (s : State) : Host.Outcome State Fault Refusal :=
  runCmd (onMailbox port (needLen port payload 24 (getLog port payload))) s

/-- IDENTIFY_MEMORY_DEVICE: total and volatile capacity are the DVSEC range size; no persistent capacity, LSA or poison list. -/
def identifyMem (p : Fin 24) (s : State) : State :=
  let cap := dvsecSize s p / 2 ^ 28
  cxlReply s p 0 (padTo 67 (leBytes 16 (slotVersion s s.sec.active) ++ leBytes 8 cap ++ leBytes 8 cap ++ leBytes 8 0 ++ leBytes 8 0 ++
    leBytes 2 64 ++ leBytes 2 64 ++ leBytes 2 64 ++ leBytes 2 64))

/-- IDENTIFY_MEMORY_DEVICE (R200). -/
def execIdentifyMemoryDevice (port : Fin 24) (payload : List Byte) (s : State) : Host.Outcome State Fault Refusal :=
  runCmd (onMailbox port (needLen port payload 0 (identifyMem port))) s

/-- GET_PARTITION_INFO (R200): volatile capacity equal to the total. -/
def execGetPartitionInfo (port : Fin 24) (payload : List Byte) (s : State) : Host.Outcome State Fault Refusal :=
  runCmd (onMailbox port (needLen port payload 0 fun s => cxlReply s port 0 (padTo 32 (leBytes 8 (dvsecSize s port / 2 ^ 28))))) s

/-- R377: life used in per cent, of the lowest M over the monitors whose latest sample is valid. -/
def lifeUsed (s : State) : Nat :=
  let ms := (s.led.aging.toList.filter fun m => !(bitOf m.margin 15)).map fun m => m.margin % 1024
  100 - ms.foldl min 1000 / 10

/-- R200: the highest stack temperature, in whole degrees C. -/
def hottestStack (s : State) : Int := (s.hbm.stk.toList.map (·.temp)).foldl max (s.hbm.stk[0].temp) / 10

/-- GET_HEALTH_INFO: the highest HBM stack temperature, and life used. -/
def healthInfo (p : Fin 24) (s : State) : State :=
  cxlReply s p 0 (padTo 18 (leBytes 3 0 ++ leBytes 1 (lifeUsed s) ++ leBytes 2 (BitVec.ofInt 16 (hottestStack s)).toNat))

/-- GET_HEALTH_INFO (R200). -/
def execGetHealthInfo (port : Fin 24) (payload : List Byte) (s : State) : Host.Outcome State Fault Refusal :=
  runCmd (onMailbox port (needLen port payload 0 (healthInfo port))) s

/-- CXL_UNSUPPORTED_OPCODE (R200): Unsupported. -/
def execCxlUnsupportedOpcode (port : Fin 24) (_opcode : Nat) (_payload : List Byte) (s : State) : Host.Outcome State Fault Refusal :=
  runCmd (onMailbox port fun s => cxlReply s port 3) s

end Sys2Proof.Machine
end

