-- ==== Sys2Proof/Machine/CmdInfo.lean ====
section
/-! DEFINITION. How a command's payload is checked (R272, R426), and the commands of classes 0x01 to 0x03 (Tables CMD-3,
CMD-4): identity, status, configuration transactions and ports. -/

namespace Sys2Proof.Machine
open Sys2Proof

/-! ## Requests (R272, R426 step 6) -/

/-- The byte of the command area lies in one of the spans a table names. -/
def namedByte (spans : List (Nat × Nat)) (i : Nat) : Bool := spans.any fun x => decide (x.1 ≤ i ∧ i ≤ x.2)

/-- The number of payload bytes that a command with these named spans requires. -/
def neededLen (spans : List (Nat × Nat)) : Nat := (spans.map fun x => x.2 + 1 - 16).foldl max 0

/-- Request bytes that the table does not name are zero; bytes beyond the length required are ignored. -/
def unnamedZero (spans : List (Nat × Nat)) (payload : List Byte) : Bool :=
  (List.range (neededLen spans)).all fun i => namedByte spans (16 + i) || payload.getD i 0 == 0

/-- R272: a payload that is long enough and has zeros in its unnamed bytes, with the further checks of its fields; else
BAD_ARG. -/
def CmdCtx.request (c : CmdCtx) (spans : List (Nat × Nat)) (ok : Bool) (f : State → State) (s : State) : State :=
  if c.payload.length < neededLen spans || !(unnamedZero spans c.payload) || !ok then c.reply replyBad s else f s

/-- OK with a payload of bytes 16 on. -/
def CmdCtx.ok (c : CmdCtx) (bs : List Byte) (s : State) : State := c.reply (replyOk bs) s

/-- A mask of ports as a number. -/
def portMask (f : Fin 24 → Bool) : Nat := ((List.finRange 24).map fun p => if f p then 2 ^ p.val else 0).sum

/-! ## Class 0x01 (Table CMD-3) -/

/-- R313, R387: the slot the boot ROM tries first at the next start-up: BOOT_PREF, or STRAP[0] without one. -/
def nextSlot (s : State) : Nat := if bootPref s < 2 then bootPref s else b2n (s.dom.straps.getLsbD 0)

/-- IDENTIFY (Table CMD-3). -/
def cmdIdentify (c : CmdCtx) (s : State) : State :=
  let version := match s.sec.running with | some im => im.version | none => 0
  c.ok (leBytes 2 0x6424 ++ leBytes 1 (b2n s.fuses.is144) ++ leBytes 1 s.fuses.stepping ++ padTo 16 s.fuses.serial ++ leBytes 4 version ++
    leBytes 1 s.sec.active ++ leBytes 1 (nextSlot s) ++ leBytes 2 0 ++ leBytes 4 (slotVersion s (1 - s.sec.active)) ++
    leBytes 4 (svnMin s) ++ leBytes 1 (ownIndex s) ++ leBytes 1 (b2n (isPrimary s))) s

/-- Table MSC-6: the number of a cache state. -/
def cacheNumber : CacheState → Nat | .enabled => 0 | .draining => 1 | .disabled => 2

/-- The port's link is ACTIVE, or its CXL link up. -/
def portUp (s : State) (p : Fin 24) : Bool := if isOlk s p then portActive s p else (s.port p).cxl.up

/-- GET_STATUS (Table CMD-3). -/
def cmdGetStatus (c : CmdCtx) (s : State) : State :=
  let flags := b2n s.cons.contained + 2 * b2n s.clk.homeOwn + 4 * b2n s.cal.valid + 8 * b2n s.dom.timeValid + 16 * b2n s.cons.salvage
  let hot := (s.hbm.stk.toList.map (·.step)).foldl max 0
  c.ok (leBytes 1 (cacheNumber s.hbm.cache) ++ leBytes 1 flags ++ leBytes 1 hot ++ leBytes 1 0 ++ leBytes 4 (portMask (portUp s)) ++
    leBytes 4 (portMask fun p => (s.port p).link.state == .maint) ++ leBytes 4 0 ++ leBytes 8 (oLines s) ++ leBytes 8 (freeExtents s) ++
    leBytes 8 (nowNs s)) s

/-! ## Configuration transactions (R286 to R291, R301, R315) -/

/-- R315: INDEX is one that the key takes. -/
def indexOk (i : KeyInfo) (index : Nat) : Bool :=
  match i.index with
  | .none => index == 0
  | .port => decide (index < 24)
  | .part => decide (1 ≤ index ∧ index ≤ 255)
  | .agent => decide (index < 256)
  | .filter => decide (index < 4)
  | .entry => decide (index < 64)

/-- R287, Table CMD-11: a value lies in its key's range (Tables MBX-7, POOL-4 and PROT-5). -/
def valueOk (key v : Nat) : Bool :=
  let within := fun (lo hi : Nat) => decide (lo ≤ v ∧ v ≤ hi)
  if key = keyWmWb then within 0 512
  else if key = keyWmTxn then within 0 928
  else if key = keyWmSbq then within 0 64
  else if key = keyWmPool then within 0 8388607
  else if key = keyPersonality then within 0 5
  else if key = keyGenCap then within 1 7
  else if key = keyPoolReq ∨ key = keyPoolWb ∨ key = keyPoolRsp then within 64 1024
  else if key = keyPoolMem then within 128 2048
  else if key = keyEncAlg then within 0 2
  else if key = keyWinBase then v % 2 ^ 30 == 0 && decide (v < 2 ^ 52)
  else if key = keyWinSize then within 0 4194304
  else if key = keyQuota then within 0 8388608
  else if key = keyHeadroom then within 0 65535
  else if key = keyWayLimit then within 0 16
  else if key = keyWeight then within 1 255
  else if key = keyMembers ∨ key = keyFilterOpcode ∨ key = keyFilterAgent ∨ key = keyFilterPart then true
  else if key = keyTxnCap then within 1 928
  else if key = keyFlags then within 0 15
  else if key = keyWbReserve then within 0 65535
  else if key = keyMemTimeout then within 10 60000
  else if key = keyFillRun then within 1 16
  else if key = keyRfmDiv then v == 1 || v == 2 || v == 4
  else if key = keyBind then (decide (v % 32 < 24) || v % 32 == 31) && decide (bits v 6 5 < 3 ∧ v < 128)
  else if key = keyRcThreshold then within 2 15
  else if key = keyRcWindow then within 1 720
  else if key = keyPatrolHbm then within 0 168
  else if key = keyPatrolBacking then within 0 8760
  else if key = keyFilterEn ∨ key = keyFullPolicy then within 0 1
  else if key = keyFilterBase then v % 64 == 0 && decide (v < 2 ^ 52)
  else if key = keyFilterSize then v % 64 == 0
  else if key = keySampleN then within 1 65535
  else if key = keyObsStream then within 0 2
  else if key = keyObsSnapshot then within 10 65535
  else if key = keyGran then within 12 30
  else if key = keyIt then within 0 63
  else false

/-- R286: the open transaction, when it has the identifier. -/
def openTxn (s : State) (id : Nat) : Option CfgTxn :=
  match s.mgmt.txn with | some t => if t.id = id ∧ t.phase = .open ∧ ¬ workRuns s [0x0203] then some t else none | none => none

/-- R286: a TXN_ID that is never zero. -/
def txnIdAfter (n : Nat) : Nat := if (n + 1) % 2 ^ 32 = 0 then 1 else (n + 1) % 2 ^ 32

/-- CFG_BEGIN (R286): of domain scope only on the primary, through its host mailbox. -/
def cmdCfgBegin (c : CmdCtx) (s : State) : State :=
  let scope := c.arg 16 1
  c.request [(16, 16)] (decide (scope ≤ 1)) (fun s =>
    if scope = 1 ∧ (c.via ≠ .primary ∨ !(isPrimary s)) then c.reply (replyNo 0) s
    else match s.mgmt.txn with
      | some t => c.reply { status := stTxnOpen, detail := b2n t.domain } s
      | none =>
        let id := s.mgmt.nextTxn
        c.ok (leBytes 4 id) { s with mgmt := { s.mgmt with txn := some { id := id, domain := scope == 1 }, nextTxn := txnIdAfter id } }) s

/-- CFG_SET (R287). -/
def cmdCfgSet (c : CmdCtx) (s : State) : State :=
  let key := c.arg 20 4
  let index := c.arg 24 2
  let len := c.arg 26 2
  let value := c.arg 28 len
  match keyInfo key with
  | none => c.reply replyBad s
  | some i =>
    c.request [(16, 27 + len)] (len == i.len && indexOk i index && valueOk key value) (fun s =>
      match openTxn s (c.arg 16 4) with
      | none => c.reply { status := stNoTxn } s
      | some t =>
        if i.domain != t.domain then c.reply (replyNo 0) s
        else
          let same := fun (e : CfgEnt) => e.key == key && e.index == index
          if !(t.staged.any same) && decide (4096 ≤ t.staged.length) then c.reply replyBad s
          else
            let t1 := { t with staged := upsert same { key := key, index := index, value := value } t.staged }
            c.ok [] { s with mgmt := { s.mgmt with txn := some t1 } }) s

/-- CFG_GET (R287, R301). -/
def cmdCfgGet (c : CmdCtx) (s : State) : State :=
  let key := c.arg 20 4
  let index := c.arg 24 2
  match keyInfo key with
  | none => c.reply replyBad s
  | some i =>
    c.request [(16, 26)] (indexOk i index) (fun s =>
      let staged : Option CfgEnt := match s.mgmt.txn with
        | some t => if bitOf (c.arg 26 1) 0 && t.id == c.arg 16 4 then t.staged.find? (fun (e : CfgEnt) => e.key == key && e.index == index) else none
        | none => none
      let value := match staged with | some e => e.value | none => cfgGet s key index
      c.ok (leBytes 2 i.len ++ leBytes 1 (b2n staged.isSome) ++ leBytes 1 0 ++ leBytes i.len value) s) s

/-- CFG_COMMIT (R288 to R294): the command is taken; a device-scope commit of a PREPARED device waits for the decision. -/
def cmdCfgCommit (c : CmdCtx) (s : State) : State :=
  c.request [(16, 19)] true (fun s =>
    match openTxn s (c.arg 16 4) with
    | none => c.reply { status := stNoTxn } s
    | some t =>
      let t1 := { t with cookie := c.cookie, via := c.via }
      let s1 := c.work { s with mgmt := { s.mgmt with txn := some t1 } } 0 0 0 0
      if s1.dom.prepared.isSome then s1 else beginCommit s1 t1) s

/-- CFG_ROLLBACK (R291). -/
def cmdCfgRollback (c : CmdCtx) (s : State) : State :=
  c.request [(16, 19)] true (fun s =>
    match openTxn s (c.arg 16 4) with
    | none => c.reply { status := stNoTxn } s
    | some _ => c.ok [] { s with mgmt := { s.mgmt with txn := none } }) s

/-! ## Ports (Table CMD-4, R302, R57) -/

/-- The port a command names. -/
def CmdCtx.port (c : CmdCtx) : Option (Fin 24) := if h : c.arg 16 1 < 24 then some ⟨c.arg 16 1, h⟩ else none

/-- A command that names a port: BAD_ARG beyond the ports. -/
def CmdCtx.onPort (c : CmdCtx) (spans : List (Nat × Nat)) (ok : Bool) (f : Fin 24 → State → State) (s : State) : State :=
  match c.port with
  | some p => c.request spans ok (f p) s
  | none => c.reply replyBad s

/-- R20: the encoding of a personality. -/
def personalityNumber : Personality → Nat | .off => 0 | .peerOlk => 1 | .peerCxl2 => 2 | .peerCxl3 => 3 | .memOlk => 4 | .memCxl => 5

/-- Table CMD-4: LINK_STATE as PORT_STATUS reports it. -/
def linkNumber (s : State) (p : Fin 24) : Nat :=
  let x := s.port p
  match x.link.state with
  | .maint => 8
  | st =>
    if personality s p == .off then 0
    else if !(isOlk s p) then (if x.cxl.up then 6 else 1)
    else match st with
      | .disabled => 0 | .detect => 1 | .discovery => 2 | .config => 3 | .eq => 4 | .verify => 5 | .active => 6 | .retrain => 7 | .maint => 8

/-- PORT_STATUS (Table CMD-4). -/
def cmdPortStatus (c : CmdCtx) (s : State) : State :=
  c.onPort [(16, 16)] true (fun p s =>
    let x := s.port p
    let up := x.link.state == .active || x.link.state == .retrain
    c.ok (leBytes 1 (personalityNumber (personality s p)) ++ leBytes 1 (linkNumber s p) ++ leBytes 1 (if up && isOlk s p then x.link.gen else 0) ++
      leBytes 1 (if isOlk s p then x.link.laneMask.toNat else x.cxl.laneMask.toNat) ++ leBytes 1 x.epoch ++ leBytes 1 (b2n x.enc.on + 2 * b2n x.link.calPending) ++
      leBytes 2 0 ++ leBytes 8 x.sumpMsgs ++ leBytes 8 x.tx.flitsReplayed ++
      ((activeIds s p).map (BitVec.ofNat 8) ++ List.replicate 8 0xFF).take 8) s) s

/-- PORT_MAINT (R302, R57): enter drains the port; leave waits for a calibration to end. -/
def cmdPortMaint (c : CmdCtx) (s : State) : State :=
  c.onPort [(16, 17)] (decide (c.arg 17 1 ≤ 1)) (fun p s =>
    let x := (s.port p).link
    if personality s p == .off then c.reply replyBad s
    else if c.arg 17 1 = 0 then
      (if x.state == .maint then c.ok [] s
       else c.work (updLink s p fun x => { x with draining := true }) p 0 0 0)
    else if x.state != .maint then c.ok [] s
    else if x.calRunning then c.work s p 1 0 0
    else c.ok [] (leaveMaint s p)) s

/-- PORT_CALIBRATE (R57). -/
def cmdPortCalibrate (c : CmdCtx) (s : State) : State :=
  c.onPort [(16, 16)] true (fun p s =>
    if personality s p == .off then c.reply replyBad s
    else if (s.port p).link.state == .maint then c.work (updLink s p fun x => { x with calRunning := true }) p 0 0 0
    else c.reply { status := stDeferred } (updLink s p fun x => { x with calPending := true })) s

/-- PORT_RESET (R46), of a port in MAINT too (DESIGN CHOICE, assumption 75: R57 names no reset among what ends MAINT). -/
def cmdPortReset (c : CmdCtx) (s : State) : State :=
  c.onPort [(16, 16)] true (fun p s =>
    if personality s p == .off then c.reply replyBad s
    else c.ok [] (linkDown s p (if isOlk s p then .detect else .disabled))) s

end Sys2Proof.Machine
end

