-- ==== Sys2Proof/Machine/CmdPool.lean ====
section
/-! DEFINITION. The commands of classes 0x04 to 0x06 (Tables CMD-5, CMD-6): partitions, pool, memory-side cache, agents. -/

namespace Sys2Proof.Machine
open Sys2Proof

/-- R298: a WAIT_MS in range. -/
def waitOk (ms : Nat) : Bool := decide (1 ≤ ms ∧ ms ≤ 60000)

/-- R303: a well-made fabric range. -/
def rangeOk (base len : Nat) : Bool := base % 4096 == 0 && len % 4096 == 0 && len != 0 && decide (base + len ≤ 2 ^ 52)

/-- R299: the work of a command is refused with 0x0103 while work of its kind runs. -/
def CmdCtx.unlessRuns (c : CmdCtx) (ops : List Nat) (f : State → State) (s : State) : State :=
  if workRuns s ops then c.reply (replyNo 0x0103) s else f s

/-! ## Class 0x04 -/

/-- TRIPLE fabric extents that are allocated, of a partition when one is given. -/
def tripleExtents (s : State) (part : Option Nat) : Nat :=
  s.pool.fxs.countP fun e => e.state == .allocated && e.triple && (match part with | some p => e.part == p | none => true)

/-- PART_STATUS (R177, Table CMD-5). -/
def cmdPartStatus (c : CmdCtx) (s : State) : State :=
  c.request [(16, 17)] true (fun s =>
    let p := c.arg 16 1
    let x := partState s p
    let s1 := if bitOf (c.arg 17 1) 0 then updPart s p fun y => { y with refused := false, firstCode := 0 } else s
    c.ok (leBytes 4 x.alloc ++ leBytes 4 (s.pool.fxs.countP fun e => e.state == .lost && e.part == p) ++ leBytes 1 (b2n x.refused) ++
      leBytes 1 x.firstCode ++ leBytes 2 0 ++ leBytes 4 (tripleExtents s (some p))) s1) s

/-- The 16 bytes of POOL_STATUS for a port. -/
def poolPort (s : State) (p : Fin 24) : List Byte :=
  let m := (s.port p).mem
  let mode := match m.desc with | some d => d.mode | none => 0
  leBytes 4 m.ek ++ leBytes 4 m.bxBase ++ leBytes 4 (freeOf m) ++ leBytes 2 m.metaExt ++ leBytes 1 (b2n m.taken + 2 * b2n m.unreachable) ++ leBytes 1 mode

/-- POOL_STATUS (Table CMD-5). -/
def cmdPoolStatus (c : CmdCtx) (s : State) : State :=
  c.ok (leBytes 4 (freeExtents s) ++ leBytes 4 (s.pool.recs.countP (·.retired)) ++
    leBytes 4 ((List.finRange 24).map fun p => if (s.port p).mem.taken then (s.port p).mem.ek else 0).sum ++ leBytes 4 (tripleExtents s none) ++
    (List.finRange 24).flatMap (poolPort s)) s

/-- DISCARD_RANGE (R182, R303). -/
def cmdDiscardRange (c : CmdCtx) (s : State) : State :=
  let base := c.arg 16 8
  let len := c.arg 24 8
  c.request [(16, 35)] (rangeOk base len && waitOk (c.arg 32 4)) (c.unlessRuns [0x0410] fun s => c.work s base len (base / 64) 0) s

/-- R181, R304: the next pool generation is written to the ledger. -/
def newGeneration (s : State) : State :=
  let g := s.led.poolGen + 1
  ledgerRecord (rootWrite { s with led := { s.led with poolGen := g } } fun r => { r with poolGen := g }) 7 (leBytes 8 g)

/-- R175, R304: the free list of a port rebuilt in ascending order from the extents that are not retired. -/
def rebuildFree (s : State) (x : Port) : Port :=
  let m := x.mem
  let kept := (s.pool.recs.filter fun r => r.retired && decide (m.bxBase ≤ r.bx ∧ r.bx < m.bxBase + m.ek)).map fun r => r.bx - m.bxBase
  { x with mem := { m with pushed := [], fresh := if m.taken then freeRuns (m.ek - m.metaExt) kept else [], stored := [], storedId := (0, 0, 0) } }

/-- R304 steps 2 and 3: every extent that is not retired is free, in ascending order (R175), and the page map is empty; the metadata
areas stay allocated to partition 0 (R166). Records that a module away from the pool keeps are of another generation now (R181). -/
def erasePool (s : State) : State :=
  let n := s.pool.recs.countP fun r => !r.retired
  let s1 := { s with ports := s.ports.map (rebuildFree s) }
  let s2 := s1.updPool fun q => { q with
    fxs := [], recs := q.recs.filter (·.retired), triples := [], jobs := [], degraded := [], discards := [], mapLost := [],
    parts := q.parts.map fun x => if x.part = 0 then x else { x with alloc := 0, shAlloc := 0, ptr := 23 },
    shAllocated := q.shAllocated - n, shFree := q.shFree + n }
  rootAll s2

/-- R304 steps 3 and 4: the page-map caches are empty, and every directory entry that no transaction has pinned is free. -/
def eraseDirectory (s : State) : State :=
  (List.finRange 16).foldl (fun s k => s.updSlc k fun sl => { sl with
    pmCache := [],
    dcache := sl.dcache.filter fun w => wayPinned sl w.set w.way,
    dstore := sl.dstore.filter fun e => match dcFind sl (entryLine e) with | some w => wayPinned sl w.set w.way | none => false }) s

/-- R304: every peer port is in MAINT. -/
def peersQuiet (s : State) : Bool := (List.finRange 24).all fun p => !(isPeer s p) || (s.port p).link.state == .maint

/-- POOL_ERASE (R304). -/
def cmdPoolErase (c : CmdCtx) (s : State) : State :=
  c.request [(16, 19)] (c.arg 16 4 == 0x53415245) (fun s =>
    if s.hbm.cache == .disabled && peersQuiet s then c.ok [] (eraseDirectory (erasePool (newGeneration s)))
    else c.reply (replyNo 0x0401) s) s

/-- R305: every page of a range lies in a window of the device, and is its home. -/
def rangeMapped (s : State) (base len : Nat) : Bool :=
  (List.range (len / 4096)).all fun i => (windowOf s (base + 4096 * i)).isSome && (homeOf s (base + 4096 * i)).1 == ownIndex s

/-- PAGE_COPY (R305). -/
def cmdPageCopy (c : CmdCtx) (s : State) : State :=
  let src := c.arg 16 8
  let dst := c.arg 24 8
  let len := c.arg 32 8
  let apart := decide (src + len ≤ dst ∨ dst + len ≤ src)
  c.request [(16, 43)] (rangeOk src len && rangeOk dst len && waitOk (c.arg 40 4) && apart && rangeMapped s src len && rangeMapped s dst len)
    (c.unlessRuns [0x0412] fun s => c.work s src len 0 dst) s

/-! ## Class 0x05 -/

/-- A state change of the cache armed for the next window (R155, R289). -/
def armCache (s : State) (x : CacheState) : State := { s with mgmt := { s.mgmt with windowCache := some x } }

/-- CACHE_DISABLE (R156). -/
def cmdCacheDisable (c : CmdCtx) (s : State) : State :=
  c.request [(16, 19)] (waitOk (c.arg 16 4)) (fun s =>
    match s.hbm.cache with
    | .disabled => c.ok [] s
    | .draining => c.work s 0 0 0 0
    | .enabled => c.work (armCache s .draining) 0 0 0 0) s

/-- CACHE_ENABLE (R158). -/
def cmdCacheEnable (c : CmdCtx) (s : State) : State :=
  if s.hbm.cache == .enabled && s.mgmt.windowCache.isNone then c.ok [] s else c.work (armCache s .enabled) 0 0 0 0

/-- R159, R160: the eviction slots that hold O lines of a range of hanks when a flush is accepted are among what it waits for. -/
def markSlots (lo hi : Nat) (s : State) : State :=
  let mark := fun (x : EvSlot) => { x with flushed := x.flushed || decide (lo ≤ x.outHank ∧ x.outHank < hi) }
  (List.finRange 16).foldl (fun s k => s.updSlc k fun sl => { sl with slots := sl.slots.map mark }) s

/-- CACHE_FLUSH (R159, R306): the entries filled at acceptance are waited for, and those the walkers make. -/
def cmdCacheFlush (c : CmdCtx) (s : State) : State :=
  c.request [(16, 19)] (waitOk (c.arg 16 4)) (c.unlessRuns [0x0502, 0x0503] fun s0 =>
    let es := entriesIn s0 0 (2 ^ 52)
    let s := markSlots 0 (2 ^ 40) s0
    if s.hbm.cache == .enabled then
      c.work ((List.finRange 16).foldl (fun s k => s.updSlc k fun sl => { sl with flush := { active := true } }) s) 0 0 0 0 es
    else checkWorks (c.work s 0 0 1 0 es)) s

/-- PERSIST_FLUSH (R160): every slice sweeps its directory over the range, then walks. -/
def cmdPersistFlush (c : CmdCtx) (s : State) : State :=
  let base := c.arg 16 8
  let len := c.arg 24 8
  c.request [(16, 35)] (rangeOk base len && waitOk (c.arg 32 4)) (c.unlessRuns [0x0502, 0x0503] fun s =>
    c.work ((List.finRange 16).foldl (fun s k => s.updSlc k fun sl => { sl with persistPos := some 0 }) (markSlots (base / 4096) ((base + len) / 4096) s))
      base len 0 0 (entriesIn s base len)) s

/-- CACHE_STATUS (Table CMD-6): a frame being evicted counts as present. -/
def cmdCacheStatus (c : CmdCtx) (s : State) : State :=
  let present := s.hbm.frames.countP fun x => x.state == .present || x.state == .evicting
  let retired := s.hbm.frames.countP fun x => x.state == .retired
  c.ok (leBytes 1 (cacheNumber s.hbm.cache) ++ leBytes 1 (b2n (!(walkersDone s false)) + 2 * b2n (!(walkersDone s true))) ++ leBytes 2 0 ++
    leBytes 4 present ++ leBytes 4 (hankCount s.fuses.is144 - present - retired) ++ leBytes 4 retired ++ leBytes 8 (oLines s) ++
    leBytes 8 ((List.finRange 16).map fun k => (s.slc k).wbuf.length).sum ++ leBytes 1 s.hbm.banks.length) s

/-! ## Class 0x06 -/

/-- Table DOM-5: the number of a binding's STATUS. -/
def bindNumber : BindStatus → Nat | .idle => 0 | .active => 1 | .withdrawn => 2 | .disowning => 3

/-- AGENT_STATUS (Table CMD-6). -/
def cmdAgentStatus (c : CmdCtx) (s : State) : State :=
  c.request [(16, 16)] true (fun s =>
    let a := c.arg 16 1
    let b := s.bind a
    c.ok (leBytes 4 (cfgGet s keyBind a % 2 ^ 7 + b.epoch * 2 ^ 7 + bindNumber b.status * 2 ^ 15) ++ leBytes 1 (b2n b.failed)) s) s

/-- AGENT_DISOWN (R307): an active ID first advances, withdrawn for its link-up; a sweep already running is waited for. -/
def cmdAgentDisown (c : CmdCtx) (s : State) : State :=
  let a := c.arg 16 1
  c.request [(16, 16)] (decide (a < 64)) (c.unlessRuns [0x0601] fun s =>
    let s1 := match (s.bind a).status with
      | .active => settleAll (agentAdvance s a (some 2) .withdrawn)
      | .disowning => s
      | st => startSweep s a st
    c.work s1 a 0 0 0) s

end Sys2Proof.Machine
end

