-- ==== Sys2Proof/Machine/CmdProt.lean ====
section
/-! DEFINITION. The commands of class 0x07 (Table CMD-7): scrubs, retirement and the error log. -/

namespace Sys2Proof.Machine
open Sys2Proof

/-! ## Scrubs (R248) -/

/-- R248, R308: the scrub that SCRUB_RANGE names, when its arguments are well made. -/
def scrubOf (c : CmdCtx) (s : State) : Option Scrub :=
  let base := c.arg 24 8
  let len := c.arg 32 8
  if c.arg 18 2 = 0 ∨ len = 0 then none
  else if c.arg 16 1 = 0 then
    (if base % 4096 = 0 ∧ len % 4096 = 0 ∧ base + len ≤ hbmTop s.fuses.is144 then some { state := 1, hbm := true, next := base, start := base, stop := base + len, rate := c.arg 18 2 } else none)
  else if c.arg 16 1 = 1 then
    (if h : c.arg 17 1 < 24 then
      let m := (s.port ⟨c.arg 17 1, h⟩).mem
      if m.taken ∧ base % 2 ^ 21 = 0 ∧ len % 2 ^ 21 = 0 ∧ base + len ≤ m.ek * 2 ^ 21 then
        some { state := 1, hbm := false, port := c.arg 17 1, next := base / 64, start := base / 64, stop := (base + len) / 64,
               rate := c.arg 18 2 }
      else none
    else none)
  else none

/-- SCRUB_RANGE (R248, R308): it completes as the scrub starts; SCRUB_DONE reports its end. -/
def cmdScrubRange (c : CmdCtx) (s : State) : State :=
  c.request [(16, 19), (24, 39)] (scrubOf c s).isSome (fun s =>
    if s.prot.scrub.state = 1 then c.reply (replyNo 0x0103) s
    else match scrubOf c s with
      | some x => c.ok [] { s with prot := { s.prot with scrub := x } }
      | none => c.reply replyBad s) s

/-- SCRUB_STATUS (Table PROT-7); an address of a backing scrub is a byte address of the module. -/
def cmdScrubStatus (c : CmdCtx) (s : State) : State :=
  let x := s.prot.scrub
  let addr := fun (a : Nat) => leBytes 8 (if x.hbm then a else a * 64)
  c.ok (leBytes 1 x.state ++ leBytes 7 0 ++ leBytes 8 x.read ++ leBytes 8 x.skipped ++ leBytes 4 x.corrected ++ leBytes 4 x.uncorrectable ++
    leBytes 4 x.persistent ++ leBytes 4 0 ++ x.addrs.flatMap addr ++ List.replicate (8 * (16 - x.addrs.length)) 0xFF) s

/-! ## Retirement (R250 to R254) -/

/-- R250, R299: a retirement is refused beyond the limit of its kind. -/
def CmdCtx.withinLimit (c : CmdCtx) (kind n : Nat) (f : State → State) (s : State) : State :=
  if retireLimit kind ≤ n then c.reply (replyNo 0x0701) s else f s

/-- R251: the fabric extent and copy index whose live copy a backing extent is. -/
def copyOf (s : State) (r : ExtRecord) : Option (FxEntry × Nat) :=
  (fxEntry s r.fx).bind fun e => ((liveCopies s e).find? (·.2 == r.bx)).map fun x => (e, x.1)

/-- RETIRE of kind EXTENT (R251). -/
def retireExtent (c : CmdCtx) (p : Fin 24) (e : Nat) (s : State) : State :=
  let bx := (s.port p).mem.bxBase + e
  match recOf s bx with
  | some r =>
    if r.retired then c.ok [] s
    else if s.pool.jobs.any (·.oldBx == some bx) then c.work s 0 bx 0 0
    else c.withinLimit 0 (retiredCount s 0) (fun s =>
      match (copyOf s r).bind fun x => startCopy s x.1 x.2 (some bx) with
      | some s1 => c.work s1 0 bx 0 0
      | none => c.reply (replyNo 0x0702) s) s
  | none => c.withinLimit 0 (retiredCount s 0) (fun s => c.ok [] (retireFree s p e bx)) s

/-- RETIRE of kind FRAME (R252). -/
def retireFrameCmd (c : CmdCtx) (f : Nat) (s : State) : State :=
  if isRetired s f then c.ok [] s
  else c.withinLimit 1 (retiredCount s 1) (fun s => settleAll (c.work s 1 f 0 0 [(f, 0)])) s

/-- RETIRE of kind BANK (R163, R253). -/
def retireBank (c : CmdCtx) (bank : Nat × Nat × Nat × Nat) (s : State) : State :=
  match s.hbm.banks.findIdx? (· == bank) with
  | some i => if s.mgmt.works.any fun w => w.op == 0x0702 && w.arg0 == 2 && w.arg1 == i then c.work s 2 i 0 0 else c.ok [] s
  | none => c.withinLimit 2 s.hbm.banks.length (fun s =>
      let i := s.hbm.banks.length
      let s1 := s.updHbm fun h => { h with banks := h.banks ++ [bank], bankJob := match h.bankJob with | some j => some j | none => some (i, 0) }
      settleAll (c.work s1 2 i 0 0 ((bankFrames s.fuses.is144 bank).map fun f => (f, 0)))) s

/-- RETIRE (R250, R308). -/
def cmdRetire (c : CmdCtx) (s : State) : State :=
  let x := c.arg 20 4
  match c.arg 16 1 with
  | 0 =>
    (if h : c.arg 17 1 < 24 then
      let m := (s.port ⟨c.arg 17 1, h⟩).mem
      c.request [(16, 17), (20, 23)] (m.taken && decide (x < m.ek - m.metaExt)) (retireExtent c ⟨c.arg 17 1, h⟩ x) s
    else c.reply replyBad s)
  | 1 => c.request [(16, 16), (20, 23)] (decide (x < hankCount s.fuses.is144)) (retireFrameCmd c x) s
  | 2 =>
    c.request [(16, 20)] (decide (c.arg 17 1 ≤ 3 ∧ c.arg 18 1 ≤ 15 ∧ c.arg 19 1 < nsid s.fuses.is144 ∧ c.arg 20 1 ≤ 3))
      (retireBank c (c.arg 17 1, c.arg 18 1, c.arg 19 1, c.arg 20 1)) s
  | _ => c.reply replyBad s

/-! ## The error log (R249, R309) -/

/-- LOG_READ (R309): records in SEQ order. -/
def cmdLogRead (c : CmdCtx) (s : State) : State :=
  let start := c.arg 16 8
  let count := c.arg 24 1
  c.request [(16, 24)] (decide (1 ≤ count ∧ count ≤ 63)) (fun s =>
    let oldest := match s.prot.log.getLast? with | some r => r.seq | none => s.prot.nextSeq
    let first := if start < oldest then oldest else start
    let recs := ((s.prot.log.filter fun r => decide (first ≤ r.seq ∧ r.seq < first + count)).reverse).take count
    let head := leBytes 8 first ++ leBytes 8 s.prot.nextSeq ++ leBytes 1 recs.length ++ leBytes 1 (b2n (decide (start < oldest)))
    c.ok (if recs.isEmpty then head else head ++ leBytes 14 0 ++ recs.flatMap logBytes) s) s

end Sys2Proof.Machine
end

