-- ==== Sys2Proof/Machine/CmdObs.lean ====
section
/-! DEFINITION. The commands of classes 0x08 to 0x0A (Tables CMD-8, CMD-9): counters, trace, slots and histograms, clock gating,
self-test, ledger and calendar. -/

namespace Sys2Proof.Machine
open Sys2Proof

/-! ## Counters (R318 to R323) -/

/-- R318: the unit kind of a counter: 1 slice, 2 port, 3 HBM stack, 4 device. -/
def counterKind (n : Nat) : Nat := if n < 512 then 1 else if n < 704 then 2 else if n < 768 then 3 else 4

/-- Table OBS-1: the qualifiers an event accepts, 1 partition, 2 agent, 3 port, 4 opcode; none for a code that is no event. -/
def eventQuals (code : Nat) : Option (List Nat) :=
  match code with
  | 0x0101 | 0x0105 | 0x0106 => some [1, 4]
  | 0x0102 => some [1, 2, 3, 4]
  | 0x0103 | 0x0104 | 0x010A | 0x010B | 0x010C | 0x010D | 0x010E => some [1]
  | 0x0107 => some [2, 4]
  | 0x0108 => some [2]
  | 0x0109 => some []
  | 0x010F | 0x0110 => some [1, 2]
  | 0x0201 | 0x0202 => some [2, 4]
  | 0x0203 | 0x0204 | 0x0205 | 0x0206 | 0x020A | 0x020B => some []
  | 0x0207 | 0x0208 | 0x0209 => some [2]
  | 0x0301 | 0x0302 => some [1]
  | 0x0303 | 0x0304 | 0x0305 | 0x0306 | 0x0307 | 0x0308 => some []
  | 0x0401 | 0x0402 | 0x0403 | 0x0404 | 0x040F => some [1]
  | 0x0405 | 0x0406 | 0x0407 => some [1, 3]
  | 0x0408 | 0x0409 | 0x040A | 0x040B | 0x040C | 0x040D | 0x040E => some []
  | _ => none

/-- R320: the counter may count the event with the qualifier. -/
def eventOk (n code qual : Nat) : Bool :=
  code / 256 == counterKind n && (match eventQuals code with | some qs => qual == 0 || qs.contains qual | none => false)

/-- A programmable counter changed. -/
def updCtr (s : State) (n : Nat) (f : Counter → Counter) : State :=
  { s with obs := { s.obs with ctrs := upsert (·.num == n) (f (counterOf s n)) s.obs.ctrs } }

/-- CTR_PROGRAM (R319, R320): the value and OVF stay. -/
def cmdCtrProgram (c : CmdCtx) (s : State) : State :=
  let n := c.arg 16 2
  c.request [(16, 18), (20, 25)] (decide (n < 832) && eventOk n (c.arg 20 4) (c.arg 24 1)) (fun s =>
    c.ok [] (updCtr s n fun x => { x with
      enable := bitOf (c.arg 18 1) 0, event := c.arg 20 4, qualKind := c.arg 24 1, qualValue := c.arg 25 1 })) s

/-- R321: the increments that fall in the cycle of a value write are dropped and counted: how many is left open. -/
def dropIncrements (s : State) (n : Nat) : State :=
  if (counterOf s n).enable && !(s.obs.frozen.contains (counterGroup n)) then
    let (x, s1) := freshNat s
    { s1 with obs := { s1.obs with dropped := s1.obs.dropped + x % 16 } }
  else s

/-- CTR_WRITE (R321). -/
def cmdCtrWrite (c : CmdCtx) (s : State) : State :=
  let n := c.arg 16 2
  let v := c.arg 24 8
  c.request [(16, 18), (24, 31)] (decide (n < 832 ∧ v < 2 ^ 48)) (fun s =>
    c.ok [] (updCtr (dropIncrements s n) n fun x => { x with value := BitVec.ofNat 48 v, ovf := x.ovf && !(bitOf (c.arg 18 1) 0) })) s

/-- CTR_FREEZE (R323). -/
def cmdCtrFreeze (c : CmdCtx) (s : State) : State :=
  let g := c.arg 16 1
  c.request [(16, 17)] (decide (g ≤ 19 ∧ c.arg 17 1 ≤ 1)) (fun s =>
    let gs := if g = 0 then (List.range 20).drop 1 else [g]
    let rest := s.obs.frozen.filter fun x => !(gs.contains x)
    c.ok [] { s with obs := { s.obs with frozen := if c.arg 17 1 = 1 then rest ++ gs else rest } }) s

/-- CTR_READ (R321). -/
def cmdCtrRead (c : CmdCtx) (s : State) : State :=
  let first := c.arg 16 2
  let n := c.arg 18 2
  c.request [(16, 19)] (decide (1 ≤ n ∧ n ≤ 500 ∧ first + n ≤ 832)) (fun s =>
    c.ok (leBytes 2 first ++ leBytes 2 n ++ leBytes 4 0 ++ (List.range n).flatMap fun i => leBytes 8 (ctrWord (counterOf s (first + i)))) s) s

/-! ## Trace, slots and histograms (R328, R333, R335, R310) -/

/-- TRACE_CONTROL (R333, R335): a discard empties the FIFO and clears the pending loss count. -/
def cmdTraceControl (c : CmdCtx) (s : State) : State :=
  let a := c.arg 16 1
  c.request [(16, 16)] (decide (a ≤ 2)) (fun s =>
    let s1 := match a with
      | 0 => { s with obs := { s.obs with running := false } }
      | 1 => { s with obs := { s.obs with running := true } }
      | _ => releaseHeld s.obs.stalled.length { s with obs := { s.obs with trace := [], readLeft := [], traceHidden := 0, traceFreed := 0, lossPending := 0 } }
    c.ok [] s1) s

/-- SLOT_READ (R310, R328). -/
def cmdSlotRead (c : CmdCtx) (s : State) : State :=
  let k := c.arg 16 1
  c.request [(16, 16)] (decide (k < 16)) (fun s =>
    if s.obs.histMode then c.reply (replyNo 0x0801) s
    else
      let x := (s.slices.toList.getD k {}).cls
      c.ok (leBytes 8 s.obs.cycles ++ leBytes 8 x.retired ++ leBytes 8 x.wasted ++ leBytes 8 x.front ++ leBytes 8 x.back) s) s

/-- HIST_READ (R310, R329). -/
def cmdHistRead (c : CmdCtx) (s : State) : State :=
  let p := c.arg 16 1
  let cls := c.arg 17 1
  c.request [(16, 17)] (decide (p < 24 ∧ cls < 8)) (fun s =>
    if !s.obs.histMode then c.reply (replyNo 0x0801) s
    else c.ok (leBytes 8 0 ++ (List.range 32).flatMap fun i => leBytes 8 (histGet s p cls i)) s) s

/-! ## Clock gating (R349 to R351) -/

/-- Table CLK-4: the node exists. -/
def gateNodeOk (level index sub : Nat) : Bool :=
  match level with
  | 0 => index == 0 | 1 => decide (index < 4) | 2 => decide (index < 16) | 3 => decide (index < 16 ∧ sub < 4) | 4 => decide (index < 24) | _ => false

/-- SUB of a node; levels without sub-blocks have none. -/
def gateSub (level sub : Nat) : Nat := if level = 3 then sub else 0

/-- R350: GATE_REQ of a node. -/
def gateReq (s : State) (level index sub : Nat) : Bool := s.clk.gates.any fun g => g.level == level && g.index == index && g.sub == sub

/-- Table CLK-4: the children of a node. -/
def gateChildren (level index : Nat) : List (Nat × Nat × Nat) :=
  match level with
  | 0 => (List.range 4).map fun q => (1, q, 0)
  | 1 => (List.range 4).map fun i => (2, 4 * index + i, 0)
  | 2 => (List.range 4).map fun i => (3, index, i)
  | _ => []

/-- Table CLK-4: a node and its ancestors. -/
def gateUp (level index sub : Nat) : List (Nat × Nat × Nat) :=
  match level with
  | 0 => [(0, 0, 0)]
  | 1 => [(1, index, 0), (0, 0, 0)]
  | 2 => [(2, index, 0), (1, index / 4, 0), (0, 0, 0)]
  | 3 => [(3, index, sub), (2, index, 0), (1, index / 4, 0), (0, 0, 0)]
  | _ => [(level, index, sub)]

/-- R350: a walker or sweep of a slice runs. -/
def walksRun (sl : Slice) : Bool :=
  sl.drain.active || sl.flush.active || sl.sweepOff.isSome || sl.disownPos.isSome || sl.persistPos.isSome

/-- R350: a slice has open work. -/
def sliceWork (s : State) (k : Fin 16) : Bool :=
  let sl := s.slc k
  !sl.txns.isEmpty || !sl.wbuf.isEmpty || !sl.slots.isEmpty || !sl.sbq.isEmpty || !sl.bReads.isEmpty || !sl.reads.isEmpty || walksRun sl ||
  (List.finRange 24).any fun p => ((s.port p).rspQ ++ (s.port p).wbQ ++ (s.port p).reqQ).any (·.slice == k)

/-- R350: a sub-block of a slice has open work: atomic unit, eviction engine, walkers, recall engine. -/
def subWork (sl : Slice) (sub : Nat) : Bool :=
  match sub with
  | 0 => sl.txns.any fun t => t.kind == .req .atomic
  | 1 => !sl.slots.isEmpty
  | 2 => walksRun sl
  | _ => sl.txns.any fun t => t.pool == .recall

/-- R350, R351: the node, or one below it, has open work; a port has while its link is neither DISABLED nor in MAINT. -/
def gateWork (s : State) (level index sub : Nat) : Bool :=
  match level with
  | 0 => (List.finRange 16).any (sliceWork s) || !s.pool.queue.isEmpty
  | 1 => (List.finRange 16).any fun k => k.val / 4 == index && sliceWork s k
  | 2 => (List.finRange 16).any fun k => k.val == index && sliceWork s k
  | 3 => (List.finRange 16).any fun k => k.val == index && subWork (s.slc k) sub
  | _ => (List.finRange 24).any fun p => p.val == index &&
      !((s.port p).link.state == .maint || ((s.port p).link.state == .disabled && !(s.port p).cxl.up))

/-- CLK_GATE (R350, R351). -/
def cmdClkGate (c : CmdCtx) (s : State) : State :=
  let level := c.arg 16 1
  let index := c.arg 17 1
  let sub := gateSub level (c.arg 18 1)
  c.request [(16, 19)] (gateNodeOk level index sub && decide (c.arg 19 1 ≤ 1)) (fun s =>
    let put := fun (gs : List GateNode) => { s with clk := { s.clk with gates := gs } }
    if c.arg 19 1 = 0 then
      let up := gateUp level index sub
      c.ok [] (put (s.clk.gates.filter fun g => !(up.contains (g.level, g.index, g.sub))))
    else if gateReq s level index sub then c.ok [] s
    else if (gateChildren level index).any fun x => !(gateReq s x.1 x.2.1 x.2.2) then c.reply { status := stChildBusy, detail := 0x0901 } s
    else if gateWork s level index sub then c.reply { status := stChildBusy, detail := 0x0902 } s
    else c.ok [] (put (s.clk.gates ++ [{ level := level, index := index, sub := sub }]))) s

/-- The gated nodes of a level as a mask. -/
def gatedMask (s : State) (level : Nat) : Nat := ((List.range 24).map fun i => if gateReq s level i 0 then 2 ^ i else 0).sum

/-- CLK_STATUS (Table CMD-9). -/
def cmdClkStatus (c : CmdCtx) (s : State) : State :=
  c.ok (leBytes 1 (b2n s.clk.refQualified + 2 * b2n s.clk.fallbackOk + 4 * b2n (s.clk.aon == .reference)) ++ leBytes 1 0 ++
    leBytes 2 s.clk.forced ++ leBytes 2 (gatedMask s 2) ++ leBytes 2 0 ++ leBytes 4 (gatedMask s 4)) s

/-- SELFTEST (R255, R376). -/
def cmdSelftest (c : CmdCtx) (s : State) : State :=
  let t := c.arg 16 1
  c.request [(16, 16)] (decide (t ≤ 1)) (fun s =>
    if t = 0 then c.reply { status := stDeferred, payload := leBytes 1 1 } { s with prot := { s.prot with selftestNext := true } }
    else c.work s 0 0 0 0) s

/-! ## Ledger and calendar (R375, R378, R311) -/

/-- Table LED-3: every stalagmite counter and index. -/
def stalKeys : List (Nat × Nat) :=
  [(1, 0), (2, 0), (3, 0), (4, 0), (5, 0)] ++ (List.range 4).map (fun i => (6, i)) ++ (List.range 24).map (fun i => (7, i)) ++ [(8, 0), (9, 0)]

/-- Table LED-5: an entry of area 1. -/
def retirementBytes (r : Nat × Nat × Nat × Nat × Nat × Nat) : List Byte :=
  match r with
  | (0, port, e, maker, product, cap) =>
    leBytes 1 0 ++ leBytes 1 port ++ leBytes 2 0 ++ leBytes 4 e ++ leBytes 2 maker ++ leBytes 2 product ++ leBytes 2 cap ++ leBytes 2 0
  | (1, f, _, _, _, _) => leBytes 1 1 ++ leBytes 3 0 ++ leBytes 4 f ++ leBytes 8 0
  | (_, st, pc, sid, ba, _) => leBytes 1 2 ++ leBytes 1 st ++ leBytes 1 pc ++ leBytes 1 sid ++ leBytes 1 ba ++ leBytes 11 0

/-- Table LED-5: the entries of a ledger area. -/
def ledgerArea (s : State) (area : Nat) : List (List Byte) :=
  match area with
  | 0 => stalKeys.map fun k => leBytes 2 k.1 ++ leBytes 2 k.2 ++ leBytes 4 0 ++ leBytes 8 (stalGet s k.1 k.2)
  | 1 => s.led.retirements.map retirementBytes
  | 2 => [leBytes 4 (svnMin s) ++ leBytes 1 (bootPref s) ++ leBytes 1 (b2n s.cal.valid) ++ leBytes 2 0 ++ leBytes 8 s.led.lastCal.1 ++
          leBytes 4 s.led.lastCal.2 ++ leBytes 4 0 ++ leBytes 8 s.led.poolGen]
  | 3 => s.led.aging.toList.map fun m => leBytes 4 m.baseline ++ leBytes 2 m.margin ++ leBytes 2 m.lowest ++ leBytes 8 m.sampledAt
  | _ => s.led.containments.reverse.map fun x => leBytes 4 x.1 ++ leBytes 1 (b2n x.2.1) ++ leBytes 3 0 ++ leBytes 8 x.2.2.1 ++ leBytes 8 x.2.2.2.1 ++ leBytes 8 x.2.2.2.2

/-- Table LED-5: bytes of an entry of an area. -/
def ledgerEntrySize (area : Nat) : Nat := if area = 2 ∨ area = 4 then 32 else 16

/-- LEDGER_READ (R375). -/
def cmdLedgerRead (c : CmdCtx) (s : State) : State :=
  let area := c.arg 16 1
  c.request [(16, 16), (20, 23)] (decide (area ≤ 4)) (fun s =>
    let es := ledgerArea s area
    let part := (es.drop (c.arg 20 4)).take (4048 / ledgerEntrySize area)
    let head := leBytes 1 area ++ leBytes 3 0 ++ leBytes 4 es.length ++ leBytes 4 part.length
    c.ok (if part.isEmpty then head else head ++ leBytes 4 0 ++ part.flatMap id) s) s

/-- CALENDAR_SET (R311, R378). -/
def cmdCalendarSet (c : CmdCtx) (s : State) : State :=
  c.request [(16, 27)] (decide (c.arg 24 4 ≤ 999999999)) (fun s =>
    c.ok [] (writeCalendar true { s with cal := { sec := c.arg 16 8, ns := c.arg 24 4, valid := true, sub := 0 } })) s

end Sys2Proof.Machine
end

