-- ==== Sys2Proof/Machine/Observe.lean ====
section
/-! DEFINITION. Reading the trace (R335), the OBS port (R336 to R338), and the end of a stall (R334). -/

namespace Sys2Proof.Machine
open Sys2Proof

/-- The stream in force: OBS_STREAM, 0 while a reset holds (R360). -/
def obsStream (s : State) : Nat := if s.clk.reset.isSome then 0 else cfgGet s keyObsStream 0

/-- R335: the first word of the next record that the consumer sees, the rest of it, and the records behind it. -/
def nextRecord (s : State) : Option (BitVec 64 × List (BitVec 64) × List (List (BitVec 64))) :=
  match s.obs.trace with
  | (w :: ws) :: rs => if s.obs.traceHidden ≤ rs.length then some (w, ws, rs) else none
  | _ => none

/-- R335: the next word of the trace FIFO; zeros, and nothing popped, when no whole record is visible. -/
def popTrace (s : State) : Nat × State :=
  let freed := s.obs.traceFreed + 1
  match s.obs.readLeft, nextRecord s with
  | w :: ws, _ => (w.toNat, { s with obs := { s.obs with readLeft := ws, traceFreed := freed } })
  | [], some (w, ws, rs) => (w.toNat, { s with obs := { s.obs with readLeft := ws, trace := rs, traceFreed := freed } })
  | [], none => (0, s)

/-- R334: a record that has waited for 1 us is dropped and counted. -/
def stallTimeout (s : State) : State :=
  match s.obs.stalled with
  | [] => s
  | _ :: rs => releaseHeld rs.length (traceDrop { s with obs := { s.obs with stalled := rs } })

/-- TRACE_STALL_TIMEOUT (R334). -/
def execTraceStallTimeout (s : State) : Host.Outcome State Fault Refusal := runCmd stallTimeout s

/-- R338: the values of a snapshot, in order. -/
def snapshotValues (s : State) : List Nat :=
  ((List.range 832).map fun i => ctrWord (counterOf s i)) ++ [s.obs.cycles % 2 ^ 64] ++
  s.slices.toList.flatMap fun sl => (List.range 4).map fun c => classCount sl.cls c % 2 ^ 64

/-- R338: SNAPSHOT record i of a snapshot: header, index, number of values and sequence number, and the values. -/
def snapshotRecord (s : State) (values : List Nat) (i : Nat) : List (BitVec 64) :=
  let vs := (values.drop (30 * i)).take 30
  traceHeader s (vs.length + 2) 6 0 ::
    BitVec.ofNat 64 (30 * i + vs.length * 2 ^ 16 + (s.obs.snapSeq % 2 ^ 24) * 2 ^ 24) :: vs.map (BitVec.ofNat 64)

/-- R338: a snapshot is still being sent. -/
def snapshotSending (s : State) : Bool := !s.obs.snapQ.isEmpty || (!s.obs.obsRec.isEmpty && !s.obs.obsFromTrace)

/-- R338: a snapshot falls due: it is captured, or skipped while the one before it is being sent; either uses a sequence number. -/
def snapshot (s : State) : State :=
  if obsStream s = 2 then
    let q := if snapshotSending s then s.obs.snapQ else (List.range 30).map (snapshotRecord s (snapshotValues s))
    { s with obs := { s.obs with snapQ := q, snapSeq := (s.obs.snapSeq + 1) % 2 ^ 24 } }
  else s

/-- OBS_SNAPSHOT (R338). -/
def execObsSnapshot (s : State) : Host.Outcome State Fault Refusal := runCmd snapshot s

/-- R337: the SYNC word. -/
abbrev syncWord : Nat := 0x5A5AC3C30F0FF0F0

/-- R336: OBS_D[3:0] on the 16 edges of a word, from a rising one: edge e carries bits 4e + 3 to 4e. -/
def obsEdges (w : Nat) : List (BitVec 4) := (List.range 16).map fun e => BitVec.ofNat 4 (w / 2 ^ (4 * e))

/-- R337: a SYNC word sent; n of the eight at the start are still to come. -/
def sendSync (s : State) (n : Nat) : State := State.emit { s with obs := { s.obs with obsSync := n, obsSince := 0 } } (.obs syncWord)

/-- R337: a word of a record, or an idle word, sent. -/
def sendWord (s : State) (w : Nat) : State := State.emit { s with obs := { s.obs with obsSince := s.obs.obsSince + 1 } } (.obs w)

/-- R337: the first word of the next record: of a snapshot before the trace; an idle word when there is none. -/
def startRecord (s : State) : State :=
  match s.obs.snapQ, nextRecord s with
  | (w :: ws) :: q, _ => sendWord { s with obs := { s.obs with snapQ := q, obsRec := ws, obsFromTrace := false } } w.toNat
  | _, some (w, ws, q) =>
    sendWord { s with obs := { s.obs with trace := q, obsRec := ws, obsFromTrace := true, traceFreed := s.obs.traceFreed + 1 } } w.toNat
  | _, none => sendWord s 0

/-- R337: the next word of the stream. -/
def obsWord (s : State) : State :=
  if obsStream s = 0 then s
  else match s.obs.obsSync with
    | n + 1 => sendSync s n
    | 0 =>
      match s.obs.obsRec with
      | w :: ws => sendWord { s with obs := { s.obs with obsRec := ws, traceFreed := s.obs.traceFreed + b2n s.obs.obsFromTrace } } w.toNat
      | [] => if 4096 ≤ s.obs.obsSince then sendSync s 0 else startRecord s

/-- OBS_WORD (R337). -/
def execObsWord (s : State) : Host.Outcome State Fault Refusal := runCmd obsWord s

end Sys2Proof.Machine
end

