-- ==== Sys2Proof/Machine/CmdFw.lean ====
section
/-! DEFINITION. The commands of classes 0x0B and 0x0C (Table CMD-10): firmware (R312, R313, R390 to R392) and the domain (R314). -/

namespace Sys2Proof.Machine
open Sys2Proof

/-! ## Staging (R312, R390) -/

/-- The staged image is discarded. -/
def dropStage (s : State) : State := { s with sec := { s.sec with staged := [], stagedLen := 0, stagedBad := false } }

/-- R390: a first chunk: BOOT_PREF that names the slot being staged goes to the running slot, and the slot is invalid. -/
def firstChunk (s : State) : State :=
  let slot := 1 - s.sec.active
  let s1 := dropStage s
  setSlot (if bootPref s1 = slot then setBootPref s1 s.sec.active else s1) slot none

/-- R312, R390: the staged image is checked, and programmed into the slot that is not running. Whether the flash takes it is
left open: a free value. -/
def programSlot (c : CmdCtx) (s : State) : State :=
  let bs := s.sec.staged.flatMap id
  let im := imageHeader bs
  let bad := s.sec.stagedBad
  let slot := 1 - s.sec.active
  let (x, s1) := freshNat (dropStage s)
  let r := imageResult (svnMin s) im
  if bad then c.reply (replyNo 0x0B01) s1
  else if r = 3 then c.reply (replyNo 0x0B02) s1
  else if r ≠ 0 then c.reply (replyNo 0x0B01) s1
  else if x % 2 = 1 then c.reply (replyNo 0x0B03) s1
  else c.ok [] (fwUpdateRecord (setSlot s1 slot (some im)) 0 slot)

/-- FW_STAGE (R312, R389, R390). -/
def cmdFwStage (c : CmdCtx) (s : State) : State :=
  let off := c.arg 16 4
  let total := c.arg 20 4
  let last := bitOf (c.arg 24 1) 0
  let chunk := c.payload.drop 12
  let stop := off + chunk.length
  c.request [(16, 24), (28, 27)] (decide (total ≤ 2 ^ 25)) (fun s =>
    if s.mgmt.state == .recovery && s.clk.failedStep.isSome then c.reply (replyNo 0x0B07) s
    else if off ≠ 0 ∧ off ≠ s.sec.stagedLen then c.reply replyBad (dropStage s)
    else if total < stop || last != (stop == total) then c.reply replyBad s
    else
      let s0 := if off = 0 then firstChunk s else s
      let s1 := { s0 with sec := { s0.sec with staged := s0.sec.staged ++ [chunk], stagedLen := stop } }
      if last then programSlot c s1 else c.ok [] s1) s

/-! ## Activation (R313, R391, R392) -/

/-- FW_ACTIVATE (R313, R391). -/
def cmdFwActivate (c : CmdCtx) (s : State) : State :=
  let slot := c.arg 16 1
  c.request [(16, 16)] (decide (slot ≤ 1)) (fun s =>
    if slotVerifies s slot then c.ok [] (fwUpdateRecord (setBootPref s slot) 1 slot) else c.reply (replyNo 0x0B04) s) s

/-- R392: the image of the slot may follow the running one without a reset of the device. -/
def liveFits (s : State) (slot : Nat) : Bool :=
  match slotImage s slot, s.sec.running with
  | some im, some run => im.live && im.liveAbi == run.liveAbi
  | _, _ => true

/-- R382: the SPDM sessions end, as whenever Spindle halts, restarts or activates firmware; a transport must connect anew. Link
keys stay. -/
def sessionsEnd (s : State) : State := { s with sec := { s.sec with sessions := [], connected := [], negotiated := [] } }

/-- R392 steps 1 and 2: live activation begins: the command stays taken, and the handover block holds the last SEQ notified. -/
def startLive (c : CmdCtx) (slot : Nat) (s : State) : State :=
  let last := ((s.prot.log.filter (·.notified)).map (·.seq)).foldl max 0
  let via := match c.via with | .primary => 0 | .secondary => 1 | .relay => 2
  let s1 := c.work (sessionsEnd s) slot 0 0 0
  { s1 with mgmt := { s1.mgmt with state := .liveActivation, handover := some (slot, c.cookie, via, last) } }

/-- FW_ACTIVATE_LIVE (R313, R392). -/
def cmdFwActivateLive (c : CmdCtx) (s : State) : State :=
  let slot := c.arg 16 1
  c.request [(16, 16)] (decide (slot ≤ 1)) (fun s =>
    if slot = s.sec.active then c.reply (replyNo 0x0B05) s
    else if !(liveFits s slot) then c.reply (replyNo 0x0B06) s
    else match s.mgmt.txn with
      | some t => c.reply { status := stTxnOpen, detail := b2n t.domain } s
      | none =>
        if s.dom.prepared.isSome then c.reply { status := stTxnOpen } s
        else if !(slotVerifies s slot) then c.reply (replyNo 0x0B04) s
        else startLive c slot s) s

/-! ## The domain (R216, R217, R314) -/

/-- DOMAIN_FORM (R314): a new formation starts; a device without a ring can form none, and the command runs into its limit. -/
def cmdDomainForm (c : CmdCtx) (s : State) : State :=
  if !(isPrimary s) then c.reply replyBad s
  else c.work (if onRing s then sendForm s else s) 0 0 0 0

/-- R217: a mask of the devices of the domain, the primary from its own state. -/
def domainMask (s : State) (own : Bool) (f : Peer → Bool) : Nat :=
  b2n own + (((List.range s.dom.n).drop 1).map fun d => if f (peerOf s d) then 2 ^ d else 0).sum

/-- DOMAIN_STATUS (Table CMD-10, R216). -/
def cmdDomainStatus (c : CmdCtx) (s : State) : State :=
  if !(isPrimary s) then c.reply replyBad s
  else
    let ring := if s.dom.down then 2 else b2n s.dom.formed
    c.ok (leBytes 1 ring ++ leBytes 1 s.dom.n ++ leBytes 1 (b2n s.dom.indexConflict + 2 * b2n s.dom.dualPrimary) ++ leBytes 1 0 ++
      leBytes 1 (cfgGet s keyGran 0) ++ leBytes 3 0 ++ leBytes 8 (domainMask s s.clk.homeOwn (·.ready)) ++
      leBytes 8 (domainMask s (faultN s) (·.faultN)) ++ leBytes 8 (domainMask s s.cons.contained (·.contained)) ++
      leBytes 8 (domainMask s false (·.diverged)) ++ leBytes 8 (domainMask s s.dom.timeValid (·.timeValid)) ++
      (List.range 64).flatMap (fun i => leBytes 1 (cfgGet s keyIt i)) ++ leBytes 8 (domNs s) ++ leBytes 4 s.dom.linkDelay) s

end Sys2Proof.Machine
end

