-- ==== Sys2Proof/Machine/Mailbox.lean ====
section
/-! DEFINITION. The mailboxes (R270 to R276): how a command is taken, the hardware's own answers, the order of the checks
(R426), the relay (R215), and one meaning for each mailbox command. -/

namespace Sys2Proof.Machine
open Sys2Proof

/-! ## What reaches the device -/

/-- R352, R355, R362, R397: host software reaches BAR0: no reset holds, the endpoint is configuration-ready and in D0. -/
def hostUp (s : State) : Bool := s.clk.reset.isNone && s.clk.perstN && s.hst.cfgReady && !s.hst.d3hot

/-- R406: the SMBus interface responds: no reset holds. -/
def smbusUp (s : State) : Bool := s.clk.reset.isNone

/-! ## The command area (R271, R272) -/

/-- The handler of a command. -/
abbrev Handler := CmdCtx → State → State

/-- Table MBX-1: the bytes of a command area. -/
def areaBytes (op : Nat) (a : CmdArea) : List Byte :=
  leBytes 2 op ++ leBytes 1 a.target ++ leBytes 1 a.resv ++ leBytes 2 a.payloadLen ++ leBytes 2 (a.resv >>> 8) ++ leBytes 4 a.cookie ++
  leBytes 4 (a.resv >>> 24) ++ padTo (min (a.payloadLen % 2 ^ 16) 4080) a.payload

/-- Table MBX-1: OPCODE and the other fields of a command area, read from its bytes. -/
def areaOf (via : Via) (bs : List Byte) : Nat × CmdArea :=
  (leAt bs 0 2,
   { via := via, target := leAt bs 2 1, resv := leAt bs 3 1 + leAt bs 6 2 * 2 ^ 8 + leAt bs 12 4 * 2 ^ 24, payloadLen := leAt bs 4 2,
     cookie := leAt bs 8 4, payload := (bs.drop 16).take (leAt bs 4 2) })

/-- R426 step 1: the fields of the area hold. -/
def areaOk (a : CmdArea) : Bool :=
  a.resv % 2 ^ 56 == 0 && !(decide (0x40 ≤ a.target % 256 ∧ a.target % 256 ≤ 0xFE)) && decide (a.payloadLen % 2 ^ 16 ≤ 4080)

/-- The command of an area. -/
def ctxOf (op : Nat) (a : CmdArea) (relayId : Nat) : CmdCtx :=
  { op := op % 2 ^ 16, cookie := a.cookie % 2 ^ 32, via := a.via, relayId := relayId, payload := padTo (a.payloadLen % 2 ^ 16) a.payload }

/-! ## Hardware's own answers (R205, R274) -/

/-- R274: the status with which hardware answers without Spindle, if it does. -/
def hardwareAnswer (s : State) : Option Nat :=
  match s.mgmt.state with
  | .notReady => some stBusy
  | .halted | .liveActivation | .restarting => some stUnavailable
  | .running | .recovery => none

/-! ## The checks (R426) -/

/-- R276: the opcodes the secondary mailbox accepts. -/
def secondaryAccepts (op : Nat) : Bool :=
  [0x0100, 0x0101, 0x0202, 0x0701, 0x0703, 0x0A00, 0x0C01, 0x0803, 0x0820, 0x0821].contains op

/-- Table CONS-7: the opcodes refused in containment. -/
def containRefuses (s : State) (op : Nat) : Bool :=
  [0x0200, 0x0201, 0x0203, 0x0410, 0x0411, 0x0412, 0x0500, 0x0501, 0x0503, 0x0601, 0x0700, 0x0702, 0x0B02].contains op ||
  (op == 0x0502 && !s.cons.salvage)

/-- R389: the opcodes served in recovery. -/
def recoveryServes (op : Nat) : Bool := [0x0100, 0x0101, 0x0A00, 0x0B00, 0x0B01].contains op

/-- R426 from step 5: containment, recovery, then the command's own checks. -/
def serve (c : CmdCtx) (h : Handler) (s : State) : State :=
  if s.cons.contained && containRefuses s c.op then c.reply (replyNo 0x0102) s
  else if s.mgmt.state == .recovery && !(recoveryServes c.op) then c.reply (replyNo 0x0B07) s
  else h c s

/-- R215: a command relayed: DOMAIN_UNREACHABLE at or above N or without a ring, else sent in RELAY_CMD fragments. -/
def relay (c : CmdCtx) (target : Nat) (bs : List Byte) (s : State) : State :=
  if s.dom.n ≤ target || !(ringCarries s) then c.reply { status := stUnreachable } s
  else
    let id := s.dom.nextRelay
    let s1 := { s with dom := { s.dom with
      relay := some { id := id, target := target, op := c.op, cookie := c.cookie }, nextRelay := (id + 1) % 65536 } }
    (relayFragments id bs).foldl (fun s f => ringSend s 0x10 target f) s1

/-- R426 step 3: the status of a command that only the primary runs, named for another device; none when the check passes. -/
def primaryOnly (c : CmdCtx) (target : Nat) : Option Reply :=
  if target = 0 ∨ target = 0xFF then none
  else if c.op = 0x0C00 ∨ c.op = 0x0C01 then some replyBad
  else if c.op = 0x0200 then
    (if c.payload.isEmpty then some replyBad else if c.arg 16 1 = 1 then some (replyNo 0) else none)
  else none

/-- R426: the checks of a command that Spindle has taken, in order; then it runs here, or is relayed. -/
def accept (c : CmdCtx) (a : CmdArea) (h : Option Handler) (s : State) : State :=
  let target := a.target % 256
  match h with
  | none => c.reply (if areaOk a then { status := stBadOpcode } else replyBad) s
  | some h =>
    if !(areaOk a) then c.reply replyBad s
    else match c.via with
      | .secondary =>
        if !(secondaryAccepts c.op) then c.reply (replyNo 0x0101) s
        else if target ≠ 0xFF ∧ target ≠ ownIndex s then c.reply replyBad s
        else serve c h s
      | .primary =>
        (match primaryOnly c target with
         | some r => c.reply r s
         | none => if target = 0 ∨ target = 0xFF then serve c h s else relay c target (areaBytes c.op a) s)
      | .relay => serve c h s

/-- R205, R274: a command answered by hardware, or taken by Spindle. -/
def takeCommand (c : CmdCtx) (a : CmdArea) (h : Option Handler) (s : State) : State :=
  if c.via = .primary ∧ !(isPrimary s) then respond s c.via c.op c.cookie c.relayId 0xFF (replyNo 0x0104)
  else match hardwareAnswer s with
    | some st => respond s c.via c.op c.cookie c.relayId 0xFF { status := st }
    | none => accept c a h s

/-! ## Doorbells (R273, R276) -/

/-- R273: a doorbell rung in TAKEN or DONE. -/
def ringIgnored (s : State) : State :=
  { s with mgmt := { s.mgmt with pri := { s.mgmt.pri with ringIgnored := min (s.mgmt.pri.ringIgnored + 1) 255 } } }

/-- R270 to R276: a command with its doorbell, or its MCTP message, arrives at a mailbox. -/
def deliverTo (op : Nat) (h : Option Handler) (a : CmdArea) (s : State) : State :=
  let c := ctxOf op a 0
  match a.via with
  | .primary =>
    if !(hostUp s) then s
    else if s.mgmt.pri.state != .idle then ringIgnored s
    else
      let cmd := s.mgmt.pri.cmd.writeBytes 0 (areaBytes op a)
      takeCommand c a h { s with mgmt := { s.mgmt with pri := { s.mgmt.pri with state := .taken, cmd := cmd, op := c.op, cookie := c.cookie } } }
  | .secondary =>
    if !(smbusUp s) || s.mgmt.sec.state != .idle then s
    else takeCommand c a h { s with mgmt := { s.mgmt with sec := { s.mgmt.sec with state := .taken, op := c.op, cookie := c.cookie } } }
  | .relay => if s.clk.reset.isSome then s else takeCommand c a h s

/-- A command row arrives. -/
def deliver (op : Nat) (h : Handler) (a : CmdArea) (s : State) : State := deliverTo op (some h) a s

/-- R426: the handler of an opcode; none for one that is not assigned. -/
def handlerOf (op : Nat) : Option Handler :=
  match op with
  | 0x0100 => some cmdIdentify
  | 0x0101 => some cmdGetStatus
  | 0x0200 => some cmdCfgBegin
  | 0x0201 => some cmdCfgSet
  | 0x0202 => some cmdCfgGet
  | 0x0203 => some cmdCfgCommit
  | 0x0204 => some cmdCfgRollback
  | 0x0300 => some cmdPortStatus
  | 0x0301 => some cmdPortMaint
  | 0x0302 => some cmdPortCalibrate
  | 0x0303 => some cmdPortReset
  | 0x0400 => some cmdPartStatus
  | 0x0401 => some cmdPoolStatus
  | 0x0410 => some cmdDiscardRange
  | 0x0411 => some cmdPoolErase
  | 0x0412 => some cmdPageCopy
  | 0x0500 => some cmdCacheDisable
  | 0x0501 => some cmdCacheEnable
  | 0x0502 => some cmdCacheFlush
  | 0x0503 => some cmdPersistFlush
  | 0x0504 => some cmdCacheStatus
  | 0x0600 => some cmdAgentStatus
  | 0x0601 => some cmdAgentDisown
  | 0x0700 => some cmdScrubRange
  | 0x0701 => some cmdScrubStatus
  | 0x0702 => some cmdRetire
  | 0x0703 => some cmdLogRead
  | 0x0800 => some cmdCtrProgram
  | 0x0801 => some cmdCtrWrite
  | 0x0802 => some cmdCtrFreeze
  | 0x0803 => some cmdCtrRead
  | 0x0810 => some cmdTraceControl
  | 0x0820 => some cmdSlotRead
  | 0x0821 => some cmdHistRead
  | 0x0900 => some cmdClkGate
  | 0x0901 => some cmdClkStatus
  | 0x0910 => some cmdSelftest
  | 0x0A00 => some cmdLedgerRead
  | 0x0A10 => some cmdCalendarSet
  | 0x0B00 => some cmdFwStage
  | 0x0B01 => some cmdFwActivate
  | 0x0B02 => some cmdFwActivateLive
  | 0x0C00 => some cmdDomainForm
  | 0x0C01 => some cmdDomainStatus
  | _ => none

/-- R273: the doorbell rung by a register write: the command area as it stands is taken. -/
def doorbell (s : State) : State :=
  if s.mgmt.pri.state != .idle then ringIgnored s
  else
    let x := areaOf .primary ((List.range 4096).map s.mgmt.pri.cmd.read)
    let c := ctxOf x.1 x.2 0
    takeCommand c x.2 (handlerOf x.1) { s with mgmt := { s.mgmt with pri := { s.mgmt.pri with state := .taken, op := c.op, cookie := c.cookie } } }

/-! ## The rows -/

/-- IDENTIFY: opcode 0x0100. -/
def execIdentify (area : CmdArea) (s : State) : Host.Outcome State Fault Refusal := runCmd (deliver 0x0100 cmdIdentify area) s

/-- GET_STATUS: opcode 0x0101. -/
def execGetStatus (area : CmdArea) (s : State) : Host.Outcome State Fault Refusal := runCmd (deliver 0x0101 cmdGetStatus area) s

/-- CFG_BEGIN: opcode 0x0200. -/
def execCfgBegin (area : CmdArea) (s : State) : Host.Outcome State Fault Refusal := runCmd (deliver 0x0200 cmdCfgBegin area) s

/-- CFG_SET: opcode 0x0201. -/
def execCfgSet (area : CmdArea) (s : State) : Host.Outcome State Fault Refusal := runCmd (deliver 0x0201 cmdCfgSet area) s

/-- CFG_GET: opcode 0x0202. -/
def execCfgGet (area : CmdArea) (s : State) : Host.Outcome State Fault Refusal := runCmd (deliver 0x0202 cmdCfgGet area) s

/-- CFG_COMMIT: opcode 0x0203. -/
def execCfgCommit (area : CmdArea) (s : State) : Host.Outcome State Fault Refusal := runCmd (deliver 0x0203 cmdCfgCommit area) s

/-- CFG_ROLLBACK: opcode 0x0204. -/
def execCfgRollback (area : CmdArea) (s : State) : Host.Outcome State Fault Refusal := runCmd (deliver 0x0204 cmdCfgRollback area) s

/-- PORT_STATUS: opcode 0x0300. -/
def execPortStatus (area : CmdArea) (s : State) : Host.Outcome State Fault Refusal := runCmd (deliver 0x0300 cmdPortStatus area) s

/-- PORT_MAINT: opcode 0x0301. -/
def execPortMaint (area : CmdArea) (s : State) : Host.Outcome State Fault Refusal := runCmd (deliver 0x0301 cmdPortMaint area) s

/-- PORT_CALIBRATE: opcode 0x0302. -/
def execPortCalibrate (area : CmdArea) (s : State) : Host.Outcome State Fault Refusal := runCmd (deliver 0x0302 cmdPortCalibrate area) s

/-- PORT_RESET: opcode 0x0303. -/
def execPortReset (area : CmdArea) (s : State) : Host.Outcome State Fault Refusal := runCmd (deliver 0x0303 cmdPortReset area) s

/-- PART_STATUS: opcode 0x0400. -/
def execPartStatus (area : CmdArea) (s : State) : Host.Outcome State Fault Refusal := runCmd (deliver 0x0400 cmdPartStatus area) s

/-- POOL_STATUS: opcode 0x0401. -/
def execPoolStatus (area : CmdArea) (s : State) : Host.Outcome State Fault Refusal := runCmd (deliver 0x0401 cmdPoolStatus area) s

/-- DISCARD_RANGE: opcode 0x0410. -/
def execDiscardRange (area : CmdArea) (s : State) : Host.Outcome State Fault Refusal := runCmd (deliver 0x0410 cmdDiscardRange area) s

/-- POOL_ERASE: opcode 0x0411. -/
def execPoolErase (area : CmdArea) (s : State) : Host.Outcome State Fault Refusal := runCmd (deliver 0x0411 cmdPoolErase area) s

/-- PAGE_COPY: opcode 0x0412. -/
def execPageCopy (area : CmdArea) (s : State) : Host.Outcome State Fault Refusal := runCmd (deliver 0x0412 cmdPageCopy area) s

/-- CACHE_DISABLE: opcode 0x0500. -/
def execCacheDisable (area : CmdArea) (s : State) : Host.Outcome State Fault Refusal := runCmd (deliver 0x0500 cmdCacheDisable area) s

/-- CACHE_ENABLE: opcode 0x0501. -/
def execCacheEnable (area : CmdArea) (s : State) : Host.Outcome State Fault Refusal := runCmd (deliver 0x0501 cmdCacheEnable area) s

/-- CACHE_FLUSH: opcode 0x0502. -/
def execCacheFlush (area : CmdArea) (s : State) : Host.Outcome State Fault Refusal := runCmd (deliver 0x0502 cmdCacheFlush area) s

/-- PERSIST_FLUSH: opcode 0x0503. -/
def execPersistFlush (area : CmdArea) (s : State) : Host.Outcome State Fault Refusal := runCmd (deliver 0x0503 cmdPersistFlush area) s

/-- CACHE_STATUS: opcode 0x0504. -/
def execCacheStatus (area : CmdArea) (s : State) : Host.Outcome State Fault Refusal := runCmd (deliver 0x0504 cmdCacheStatus area) s

/-- AGENT_STATUS: opcode 0x0600. -/
def execAgentStatus (area : CmdArea) (s : State) : Host.Outcome State Fault Refusal := runCmd (deliver 0x0600 cmdAgentStatus area) s

/-- AGENT_DISOWN: opcode 0x0601. -/
def execAgentDisown (area : CmdArea) (s : State) : Host.Outcome State Fault Refusal := runCmd (deliver 0x0601 cmdAgentDisown area) s

/-- SCRUB_RANGE: opcode 0x0700. -/
def execScrubRange (area : CmdArea) (s : State) : Host.Outcome State Fault Refusal := runCmd (deliver 0x0700 cmdScrubRange area) s

/-- SCRUB_STATUS: opcode 0x0701. -/
def execScrubStatus (area : CmdArea) (s : State) : Host.Outcome State Fault Refusal := runCmd (deliver 0x0701 cmdScrubStatus area) s

/-- RETIRE: opcode 0x0702. -/
def execRetire (area : CmdArea) (s : State) : Host.Outcome State Fault Refusal := runCmd (deliver 0x0702 cmdRetire area) s

/-- LOG_READ: opcode 0x0703. -/
def execLogRead (area : CmdArea) (s : State) : Host.Outcome State Fault Refusal := runCmd (deliver 0x0703 cmdLogRead area) s

/-- CTR_PROGRAM: opcode 0x0800. -/
def execCtrProgram (area : CmdArea) (s : State) : Host.Outcome State Fault Refusal := runCmd (deliver 0x0800 cmdCtrProgram area) s

/-- CTR_WRITE: opcode 0x0801. -/
def execCtrWrite (area : CmdArea) (s : State) : Host.Outcome State Fault Refusal := runCmd (deliver 0x0801 cmdCtrWrite area) s

/-- CTR_FREEZE: opcode 0x0802. -/
def execCtrFreeze (area : CmdArea) (s : State) : Host.Outcome State Fault Refusal := runCmd (deliver 0x0802 cmdCtrFreeze area) s

/-- CTR_READ: opcode 0x0803. -/
def execCtrRead (area : CmdArea) (s : State) : Host.Outcome State Fault Refusal := runCmd (deliver 0x0803 cmdCtrRead area) s

/-- TRACE_CONTROL: opcode 0x0810. -/
def execTraceControl (area : CmdArea) (s : State) : Host.Outcome State Fault Refusal := runCmd (deliver 0x0810 cmdTraceControl area) s

/-- SLOT_READ: opcode 0x0820. -/
def execSlotRead (area : CmdArea) (s : State) : Host.Outcome State Fault Refusal := runCmd (deliver 0x0820 cmdSlotRead area) s

/-- HIST_READ: opcode 0x0821. -/
def execHistRead (area : CmdArea) (s : State) : Host.Outcome State Fault Refusal := runCmd (deliver 0x0821 cmdHistRead area) s

/-- CLK_GATE: opcode 0x0900. -/
def execClkGate (area : CmdArea) (s : State) : Host.Outcome State Fault Refusal := runCmd (deliver 0x0900 cmdClkGate area) s

/-- CLK_STATUS: opcode 0x0901. -/
def execClkStatus (area : CmdArea) (s : State) : Host.Outcome State Fault Refusal := runCmd (deliver 0x0901 cmdClkStatus area) s

/-- SELFTEST: opcode 0x0910. -/
def execSelftest (area : CmdArea) (s : State) : Host.Outcome State Fault Refusal := runCmd (deliver 0x0910 cmdSelftest area) s

/-- LEDGER_READ: opcode 0x0A00. -/
def execLedgerRead (area : CmdArea) (s : State) : Host.Outcome State Fault Refusal := runCmd (deliver 0x0A00 cmdLedgerRead area) s

/-- CALENDAR_SET: opcode 0x0A10. -/
def execCalendarSet (area : CmdArea) (s : State) : Host.Outcome State Fault Refusal := runCmd (deliver 0x0A10 cmdCalendarSet area) s

/-- FW_STAGE: opcode 0x0B00. -/
def execFwStage (area : CmdArea) (s : State) : Host.Outcome State Fault Refusal := runCmd (deliver 0x0B00 cmdFwStage area) s

/-- FW_ACTIVATE: opcode 0x0B01. -/
def execFwActivate (area : CmdArea) (s : State) : Host.Outcome State Fault Refusal := runCmd (deliver 0x0B01 cmdFwActivate area) s

/-- FW_ACTIVATE_LIVE: opcode 0x0B02. -/
def execFwActivateLive (area : CmdArea) (s : State) : Host.Outcome State Fault Refusal := runCmd (deliver 0x0B02 cmdFwActivateLive area) s

/-- DOMAIN_FORM: opcode 0x0C00. -/
def execDomainForm (area : CmdArea) (s : State) : Host.Outcome State Fault Refusal := runCmd (deliver 0x0C00 cmdDomainForm area) s

/-- DOMAIN_STATUS: opcode 0x0C01. -/
def execDomainStatus (area : CmdArea) (s : State) : Host.Outcome State Fault Refusal := runCmd (deliver 0x0C01 cmdDomainStatus area) s

/-- BAD_OPCODE (R272): a doorbell rung with an OPCODE; one that is not assigned completes with BAD_OPCODE. -/
def execBadOpcode (opcode : Nat) (area : CmdArea) (s : State) : Host.Outcome State Fault Refusal :=
  runCmd (deliverTo opcode (handlerOf (opcode % 2 ^ 16)) area) s

/-- RING_IGNORED (R273). -/
def execRingIgnored (s : State) : Host.Outcome State Fault Refusal :=
  runCmd (fun s => if hostUp s && s.mgmt.pri.state != .idle then ringIgnored s else s) s

/-- RELAY_CMD (R215): the fragments of a relayed command; with the last, the target runs it as though its own mailbox had
received it. -/
def relayCmd (f : RingFrame) (s : State) : State :=
  ringIn s 0x10 f fun s =>
    let id := leAt f.payload 0 2
    let off := leAt f.payload 2 2
    let got := if off = 0 then [] else s.dom.relayIn
    if isPrimary s || off != got.length || (off != 0 && id != s.dom.relayInId) then s
    else
      let bs := got ++ f.payload.drop 8
      if bitOf (leAt f.payload 6 1) 0 then
        let x := areaOf .relay bs
        takeCommand (ctxOf x.1 x.2 id) x.2 (handlerOf x.1) { s with dom := { s.dom with relayIn := [] } }
      else { s with dom := { s.dom with relayIn := bs, relayInId := id } }

/-- RELAY_CMD (R215). -/
def execRelayCmd (frame : RingFrame) (s : State) : Host.Outcome State Fault Refusal := runCmd (relayCmd frame) s

end Sys2Proof.Machine
end

