-- ==== Sys2Proof/Machine/Spindle.lean ====
section
/-! DEFINITION. Spindle: traps and halts (R240, R241), DMA channels that halt (R242, R300), the packets of the notification
queue (R277 to R280) and the resumption of firmware (R425). -/

namespace Sys2Proof.Machine
open Sys2Proof

/-- Firmware runs and serves: MGMT_STATE shows RUNNING or RECOVERY. -/
def spindleServes (s : State) : Bool := s.clk.reset.isNone && (s.mgmt.state == .running || s.mgmt.state == .recovery)

/-- Spindle executes: no reset holds and it is not halted. -/
def spindleExecutes (s : State) : Bool := s.clk.reset.isNone && s.mgmt.state != .halted

/-! ## Halts (R241, R275) -/

/-- What a command's work becomes when Spindle halts: work that goes on by itself goes on; the rest ends where it stands. -/
def haltWork (s : State) (w : Work) : State :=
  if w.responded || continues w.op || w.op == 0x0413 then updWork s w { w with responded := true }
  else
    let s1 := { s with mgmt := { s.mgmt with works := removeFirst w s.mgmt.works } }
    if w.op = 0x0301 then (if h : w.arg0 < 24 then s1.updPort ⟨w.arg0, h⟩ fun x => { x with link := { x.link with draining := false } } else s1)
    else s1

/-- R275: the command taken at a mailbox completes with MANAGEMENT_UNAVAILABLE. -/
def answerHalt (s : State) (via : Via) : State :=
  let m := match via with | .primary => s.mgmt.pri | _ => s.mgmt.sec
  if m.state == .taken then respond s via m.op m.cookie 0 0xFF { status := stUnavailable } else s

/-- R294: a domain commit decided before the halt stands; its CFG_COMMIT has completed. -/
def haltVote (s : State) : State :=
  match s.dom.vote with
  | some v => if v.decided == some true then setVote s (some { v with completed := true }) else s
  | none => s

/-- R275: hardware completes the commands taken; an open transaction whose window has not begun takes no effect. -/
def endTaken (s : State) : State :=
  let s1 := rollback s 0xFF { status := stUnavailable }
  let s2 := haltVote (s1.mgmt.works.foldl haltWork s1)
  let s3 := { s2 with dom := { s2.dom with relay := none } }
  answerHalt (answerHalt s3 .primary) .secondary

/-- R241: Spindle halts with MGMT_FAULT: the record and vector 1 in the cycle of the halt; SPDM sessions end (R382). -/
def halt (cause : Nat) (s : State) : State :=
  let was := s.mgmt.fault
  let s1 := { s with mgmt := { s.mgmt with state := .halted, fault := true, haltCause := cause } }
  let s2 := if was then s1 else raiseVector s1 1
  sessionsEnd (endTaken (logClass s2 0x11 3 0 none none none cause))

/-- R240: the page the handler may load: that of the image copy, or, when its read is a UE or its digest fails, that of the flash slot. -/
def pageFound (x : PageSources) : Bool := (!x.imageUe && x.imageDigest) || x.flashDigest

/-- R240: the page took a fetch trap less than 1 s ago. -/
def trappedLately (s : State) (page : Nat) : Bool := s.mgmt.trapPages.any fun t => t.1 == page && decide (nowNs s < t.2 + 1000000000)

/-- R240: an instruction fetch meets a UE; the handler reloads the page into the TCM, or, at a second fault, Spindle halts. -/
def fetchTrap (page : Nat) (src : PageSources) (s : State) : State :=
  if !(spindleExecutes s) then s
  else if src.inHandler || !(pageFound src) || trappedLately s page then halt 1 s
  else
    let s1 := logClass s 0x0B 3 0
    let recent := s1.mgmt.trapPages.filter fun t => decide (nowNs s < t.2 + 1000000000)
    { s1 with mgmt := { s1.mgmt with trapPages := recent ++ [(page, nowNs s)] } }

/-- FETCH_TRAP (R240). -/
def execFetchTrap (page : Nat) (src : PageSources) (s : State) : Host.Outcome State Fault Refusal := runCmd (fetchTrap page src) s

/-- R241: a data load meets a UE: recorded, and Spindle halts. -/
def dataLoadUe (addr : Nat) (s : State) : State :=
  if spindleExecutes s then halt 2 (logClass s 0x02 3 0 (some (2, addr / 64 * 64))) else s

/-- DATA_LOAD_UE (R241). -/
def execDataLoadUe (addr : Nat) (s : State) : Host.Outcome State Fault Refusal := runCmd (dataLoadUe addr) s

/-! ## DMA channels (R242, R300) -/

/-- R300: a second halt of a channel on the same line: a staged image is discarded, a record is marked, and any other command that used the
channel ends. -/
def dmaSecond (ch a : Nat) (s : State) : State :=
  let s1 := { s with mgmt := { s.mgmt with dmaRetried := s.mgmt.dmaRetried.filter (· != (ch, a)) } }
  if 0x290400000 ≤ a ∧ a < 0x292400000 then dropStage s1
  else if 0x290000000 ≤ a ∧ a < 0x290400000 then
    { s1 with prot := { s1.prot with log := s1.prot.log.map fun r =>
      if r.seq % 65536 == (a - 0x290000000) / 64 then { r with lost := true } else r } }
  else match findWork s1 0x0412 with
    | some w => endWork { s1 with mgmt := { s1.mgmt with dmaLines := [] } } w (replyNo 0xFF01 (leBytes 8 a))
    | none => s1

/-- R242: firmware records the halt and restarts the channel, which retries the line once. -/
def dmaRestart (ch a : Nat) (s : State) : State :=
  let s1 := logClass s 0x0C 4 ch (some (2, a))
  if s1.mgmt.dmaRetried.contains (ch, a) then dmaSecond ch a s1
  else { s1 with mgmt := { s1.mgmt with dmaRetried := s1.mgmt.dmaRetried ++ [(ch, a)] } }

/-- R242: a channel halts, with status CH_HALT_UE and the source address; firmware, while it runs, restarts it. -/
def dmaHalt (ch addr : Nat) (s : State) : State :=
  let a := addr / 64 * 64
  if s.clk.reset.isSome || decide (8 ≤ ch) then s
  else
    let s1 := { s with mgmt := { s.mgmt with dmaHalted := s.mgmt.dmaHalted.filter (·.1 != ch) ++ [(ch, a)] } }
    if spindleServes s then dmaRestart ch a { s1 with mgmt := { s1.mgmt with dmaHalted := s1.mgmt.dmaHalted.filter (·.1 != ch) } } else s1

/-- DMA_HALT (R242). -/
def execDmaHalt (channel : Nat) (addr : Nat) (s : State) : Host.Outcome State Fault Refusal := runCmd (dmaHalt channel addr) s

/-! ## The notification queue (R277 to R280) -/

/-- Tables MBX-4 and MBX-5: the words of a packet. -/
def packetWords (e : Event) (nseq : Nat) : List (BitVec 64) :=
  let w0 := 2 ^ 63 + e.ntype % 2 ^ 8 + (if e.word.isSome then 2 ^ 8 else 0) + (nseq % 2 ^ 16) * 2 ^ 16 + (e.arg % 2 ^ 30) * 2 ^ 32
  match e.word with
  | none => [BitVec.ofNat 64 (w0 + 2 ^ 62)]
  | some w => [BitVec.ofNat 64 w0, BitVec.ofNat 64 (2 ^ 63 + 2 ^ 62 + w % 2 ^ 62)]

/-- R425: the record is notified. -/
def markNotified (s : State) (seq : Option Nat) : State :=
  match seq with
  | none => s
  | some n => { s with prot := { s.prot with log := s.prot.log.map fun r => if r.seq = n then { r with notified := true } else r } }

/-- R280, R282: a packet pushed whole, or, when Spindle does not see the room for it, dropped and counted; NSEQ advances either way. -/
def pushPrimary (s : State) (e : Event) : State :=
  let ws := packetWords e s.mgmt.nseq
  let s1 := { s with mgmt := { s.mgmt with nseq := (s.mgmt.nseq + 1) % 65536 } }
  markNotified (if s1.mgmt.nq.length + s1.mgmt.nqFreed + ws.length ≤ 512 then
      { s1 with mgmt := { s1.mgmt with nq := s1.mgmt.nq ++ ws, nqHidden := s1.mgmt.nqHidden + ws.length } }
    else { s1 with mgmt := { s1.mgmt with nqLost := s1.mgmt.nqLost + 1 } }) e.seq

/-- R279: the events a secondary reports: the end of background work, and of a scrub. -/
def noteEvent (e : Event) : Bool := e.ntype == 5 || (e.ntype == 1 && e.arg % 256 == 0x0D)

/-- R279: a secondary's packet goes to the primary in a note, is held while the ring is down, or dropped and counted. -/
def pushSecondary (s : State) (e : Event) : State :=
  if noteEvent e then
    let ws := (packetWords { e with arg := e.arg % 2 ^ 24 + ownIndex s * 2 ^ 24 } 0).map (·.toNat)
    markNotified (if ringCarries s then sendNote s ws
      else if s.dom.notes.length < 64 then { s with dom := { s.dom with notes := s.dom.notes ++ [{ words := ws }] } }
      else { s with dom := { s.dom with notesLost := s.dom.notesLost + 1 } }) e.seq
  else s

/-- R278: an event turned into a packet. -/
def pushEvent (s : State) (e : Event) : State := if isPrimary s then pushPrimary s e else pushSecondary s e

/-- R425: the events the intake has dropped show as a gap in NSEQ. -/
def takeLosses (s : State) : State :=
  { s with mgmt := { s.mgmt with nseq := (s.mgmt.nseq + s.mgmt.intakeLost) % 65536, intakeLost := 0 } }

/-- The oldest event of the intake becomes a packet. -/
def pushHead (s : State) : State :=
  match s.mgmt.intake with
  | [] => s
  | e :: es =>
    let s1 := takeLosses s
    pushEvent { s1 with mgmt := { s1.mgmt with intake := es } } e

/-- NOTIFICATION_PUSH (R280). -/
def execNotificationPush (s : State) : Host.Outcome State Fault Refusal := runCmd (fun s => if spindleServes s then pushHead s else s) s

/-! ## Firmware runs again (R425) -/

/-- R425 step 4: the records that qualify and are not notified yet, oldest first. -/
def unnotified (s : State) : List LogRec := (s.prot.log.filter fun r => recNotified r && !r.notified).reverse

/-- The ERROR_RECORD event of a record (Table MBX-5). -/
def recordEvent (r : LogRec) : Event :=
  { ntype := 1, arg := r.cls + r.severity * 2 ^ 8 + r.srcKind * 2 ^ 16, word := some r.seq, seq := some r.seq }

/-- R425: NSEQ goes on with the gap of the events dropped, the events held become packets, and the log is scanned. Channels that
halted meanwhile are restarted (R242). -/
def resume (s : State) : State :=
  let s1 := s.mgmt.dmaHalted.foldl (fun s x => dmaRestart x.1 x.2 s) { s with mgmt := { s.mgmt with dmaHalted := [] } }
  let s2 := takeLosses s1
  let s3 := s2.mgmt.intake.foldl pushEvent { s2 with mgmt := { s2.mgmt with intake := [] } }
  (unnotified s3).foldl (fun s r => pushEvent s (recordEvent r)) s3

/-- SPINDLE_RESUME (R425). -/
def execSpindleResume (s : State) : Host.Outcome State Fault Refusal := runCmd (fun s => if spindleServes s then resume s else s) s

end Sys2Proof.Machine
end

