-- ==== Sys2Proof/Machine/HostReg.lean ====
section
/-! DEFINITION. The PCIe endpoint: reads and writes of BAR0 and BAR4 that have an effect (R399 to R405), MSI-X (R403), the power
state (R397) and DOE Abort (R404). What a read of any register returns stands in Registers.lean. -/

namespace Sys2Proof.Machine
open Sys2Proof

/-- R362, R397: configuration space is reached in D0 and D3hot alike. -/
def configUp (s : State) : Bool := s.clk.reset.isNone && s.clk.perstN && s.hst.cfgReady

/-- The data a read returns. -/
def returnRead (v : Nat) (s : State) : State := s.emit (.read v)

/-! ## Mailbox and queue (R273, R280, R281) -/

/-- R273: DONE cleared. -/
def clearDone (s : State) : State :=
  if s.mgmt.pri.state == .done then { s with mgmt := { s.mgmt with pri := { s.mgmt.pri with state := .idle, ringIgnored := 0 } } } else s

/-- MBX_DONE_CLEAR (R273). -/
def execMbxDoneClear (s : State) : Host.Outcome State Fault Refusal := runCmd (fun s => if hostUp s then clearDone s else s) s

/-- R281: the words of the notification queue that the reader sees. -/
def nqVisible (s : State) : List (BitVec 64) := s.mgmt.nq.take (s.mgmt.nq.length - s.mgmt.nqHidden)

/-- R281: NQ_DATA read; a 32-bit read returns zeros and pops nothing. -/
def nqRead (wide : Bool) (s : State) : State :=
  match nqVisible s with
  | w :: _ => if wide then returnRead w.toNat { s with mgmt := { s.mgmt with nq := s.mgmt.nq.drop 1, nqFreed := s.mgmt.nqFreed + 1 } } else returnRead 0 s
  | [] => returnRead 0 s

/-- NQ_DATA_READ (R281). -/
def execNqDataRead (wide : Bool) (s : State) : Host.Outcome State Fault Refusal := runCmd (fun s => if hostUp s then nqRead wide s else s) s

/-- NQ_LOST_READ (R280). -/
def execNqLostRead (s : State) : Host.Outcome State Fault Refusal :=
  runCmd (fun s => if hostUp s then returnRead s.mgmt.nqLost { s with mgmt := { s.mgmt with nqLost := 0 } } else s) s

/-! ## Trace and error log (R335, R405) -/

/-- R335: TRACE_READ, or a read of the trace window; zeros while the OBS port consumes the FIFO, and for a 32-bit read. -/
def traceRead (wide : Bool) (s : State) : State :=
  if wide && cfgGet s keyObsStream 0 == 0 then
    let (w, s1) := popTrace s
    returnRead w s1
  else returnRead 0 s

/-- TRACE_READ (R335). -/
def execTraceRead (wide : Bool) (s : State) : Host.Outcome State Fault Refusal := runCmd (fun s => if hostUp s then traceRead wide s else s) s

/-- R405: a slot whose HBM line is uncorrectable: recorded, and its record lost (R309). -/
def logSlotUe (i : Nat) (s : State) : State :=
  let ha := 0x290000000 + 64 * i
  logClass { s with prot := { s.prot with log := s.prot.log.map fun r => if r.seq % 65536 == i then { r with lost := true } else r } }
    0x02 2 (stackOf ha) (some (2, ha))

/-- R400, R405: a read of the error-log window by aligned words: `width` bytes from one slot, taken from one HBM read. -/
def logWindowRead (offset width : Nat) (ue : Bool) (s : State) : State :=
  let i := (offset - 0x400000) / 64
  let fits := offset % 8 == 0 && width % 8 == 0 && decide (width ≤ 64 - offset % 64)
  let half := offset % 4 == 0 && width == 4
  if !(fits || half) || decide (offset < 0x400000 ∨ 0x800000 ≤ offset) then returnRead 0 s
  else if ue then returnRead 0 (logSlotUe i s)
  else match slotRecord s i with
    | some r => returnRead (if r.lost then 0 else leAt (logBytes r) (offset % 64) width) (if r.lost then logSlotUe i s else s)
    | none => returnRead 0 s

/-- ERROR_LOG_WINDOW_READ (R405). -/
def execErrorLogWindowRead (offset : Nat) (width : Nat) (ue : Bool) (s : State) : Host.Outcome State Fault Refusal :=
  runCmd (fun s => if hostUp s then logWindowRead offset width ue s else s) s

/-! ## Spindle restart (R402) -/

/-- Table CLK-5-A, R298: a SPINDLE reset: Spindle, its TCM and its DMA channels; its work ends, and no end of it is reported. The drain
of a domain commit that has been decided goes on (R294). -/
def spindleReset (s : State) : State :=
  let ws := s.mgmt.works.filter (·.op == 0x0413)
  let s1 := { s with mgmt := { s.mgmt with works := ws, dmaLines := [], dmaHalted := [], dmaRetried := [], trapPages := [] } }
  dropStage (sessionsEnd { s1 with sec := { s1.sec with running := none } })

/-- R402: SPINDLE_CTRL written. -/
def spindleCtrl (value : Nat) (s : State) : State :=
  if s.mgmt.state == .halted && bitOf value 0 && bits value 31 16 == 0x5350 then
    let s1 := spindleReset s
    { s1 with mgmt := { s1.mgmt with state := .restarting } }
  else s

/-- SPINDLE_RESTART (R402). -/
def execSpindleRestart (value : Nat) (s : State) : Host.Outcome State Fault Refusal :=
  runCmd (fun s => if hostUp s then spindleCtrl value s else s) s

/-! ## Watermarks (R285) -/

/-- R285: CROSSED cleared: PEAK is loaded, and the count compared in the next cycle. -/
def wmClear (w : Fin 49) (s : State) : State :=
  let x := s.mgmt.wms[w]
  if x.crossed then
    { s with mgmt := { s.mgmt with wms := s.mgmt.wms.set w { crossed := false, peak := wmCount s w, recheck := true } } }
  else s

/-- WM_CROSSED_CLEAR (R285). -/
def execWmCrossedClear (wm : Fin 49) (s : State) : Host.Outcome State Fault Refusal :=
  runCmd (fun s => if hostUp s then wmClear wm s else s) s

/-! ## MSI-X and power (R397, R403) -/

/-- R403: MSI-X is enabled, and the endpoint may send: what was held is pending, and what may be sent is sent. -/
def enableMsix (s : State) : State :=
  let vs := s.hst.vectors.map fun (x : Vector32) => { x with pending := x.pending || x.held, held := false }
  sendAllPending { s with hst := { s.hst with msixEnable := true, busMaster := true, vectors := vs } }

/-- R403: a vector's mask bit written. -/
def maskVector (v : Fin 32) (masked : Bool) (s : State) : State := sendPending (setVector s v { s.hst.vectors[v] with masked := masked }) v

/-- MSIX_UNMASK (R403): no vector stands for enabling MSI-X. -/
def execMsixUnmask (vector : Option (Fin 32)) (s : State) : Host.Outcome State Fault Refusal :=
  runCmd (fun s => match vector with
    | none => if configUp s then enableMsix s else s
    | some v => if hostUp s then maskVector v false s else s) s

/-- R397: the power state changes; the messages held in D3hot are sent after the return to D0. -/
def powerState (d3 : Bool) (s : State) : State :=
  if configUp s then sendAllPending { s with hst := { s.hst with d3hot := d3 } } else s

/-- PCIE_POWER_STATE_CHANGE (R397). -/
def execPciePowerStateChange (d3 : Bool) (s : State) : Host.Outcome State Fault Refusal := runCmd (powerState d3) s

/-- DOE_ABORT (R404). -/
def execDoeAbort (s : State) : Host.Outcome State Fault Refusal :=
  runCmd (fun s => if configUp s then { s with hst := { s.hst with doeObject := none, doeError := false } } else s) s

/-! ## Register writes (R9, R11, R401) -/

/-- R403: a dword of the MSI-X table written; the last of an entry holds its mask bit. -/
def msixWrite (off v : Nat) (s : State) : State :=
  let s1 := { s with hst := { s.hst with table := s.hst.table.writeBytes off (leBytes 4 v) } }
  if off % 16 = 12 then maskVector ⟨off / 16 % 32, Nat.mod_lt _ (by decide)⟩ (bitOf v 0) s1 else s1

/-- R283: CROSSED bits cleared through a dword of WM_SUMMARY whose bit 0 stands for watermark w0. -/
def wmSummary (w0 v : Nat) (s : State) : State :=
  ((List.finRange 49).filter fun w => decide (w0 ≤ w.val ∧ w.val < w0 + 32) && bitOf v (w.val - w0)).foldl (fun s w => wmClear w s) s

/-- Table HOST-4: an aligned 32-bit write to BAR0. A read-only register, a reserved bit and an offset not listed ignore it. -/
def writeDword (off v : Nat) (s : State) : State :=
  if off = 0x18 then spindleCtrl v s
  else if off = 0x100 then (if bitOf v 0 then doorbell s else s)
  else if off = 0x104 then (if bitOf v 0 then clearDone s else s)
  else if 0x1000 ≤ off ∧ off < 0x2000 then
    (if s.mgmt.pri.state == .idle then
      { s with mgmt := { s.mgmt with pri := { s.mgmt.pri with cmd := s.mgmt.pri.cmd.writeBytes (off - 0x1000) (leBytes 4 v) } } }
    else s)
  else if off = 0x4008 then wmSummary 0 v s
  else if off = 0x400C then wmSummary 32 v s
  else if 0x4100 ≤ off ∧ off % 0x10 = 0 then
    (if h : (off - 0x4100) / 0x10 < 49 then (if bitOf v 0 then wmClear ⟨(off - 0x4100) / 0x10, h⟩ s else s)
     else if 0x8000 ≤ off ∧ off < 0x8200 then msixWrite (off - 0x8000) v s else s)
  else if 0x8000 ≤ off ∧ off < 0x8200 then msixWrite (off - 0x8000) v s
  else s

/-- R11: a write to BAR0 of 4 or 8 bytes, aligned; any other is ignored. One of 8 bytes that covers two registers writes the lower
one first (DESIGN CHOICE, assumption 68: the spec gives no order). -/
def registerWrite (offset width value : Nat) (s : State) : State :=
  if !(hostUp s) || decide (65536 ≤ offset) then s
  else if width = 4 ∧ offset % 4 = 0 then writeDword offset (value % 2 ^ 32) s
  else if width = 8 ∧ offset % 8 = 0 then writeDword (offset + 4) (value / 2 ^ 32 % 2 ^ 32) (writeDword offset (value % 2 ^ 32) s)
  else s

/-- REGISTER_WRITE (R9, R11). -/
def execRegisterWrite (offset : Nat) (width : Nat) (value : Nat) (s : State) : Host.Outcome State Fault Refusal :=
  runCmd (registerWrite offset width value) s

end Sys2Proof.Machine
end

