-- ==== Sys2Proof/Machine/Reset.lean ====
section
/-! DEFINITION. Resets (R352 to R354, R360 to R362, R422): what each type resets and keeps, the pins that begin and release one,
and the junction sensors. -/

namespace Sys2Proof.Machine
open Sys2Proof

/-! ## What a reset keeps (Table CLK-5-A) -/

/-- R180: the records that the module of a port keeps: those of a module in the pool, but for the spares of copies that have not
ended (R251), or those of a module that has not come back since an earlier reset. -/
def keptRecords (s : State) (m : PortMem) : PortMem :=
  if m.taken && m.ek != 0 then
    let mine := s.pool.recs.filter fun r => decide (m.bxBase ≤ r.bx ∧ r.bx < m.bxBase + m.ek) && !(s.pool.jobs.any (·.newBx == r.bx))
    { stored := mine.map fun r => { r with bx := r.bx - m.bxBase }, storedId := moduleId m }
  else { stored := m.stored, storedId := m.storedId }

/-- The number of a reset type in the ledger (Table LED-4). -/
def resetNumber : ResetType → Nat | .powerOn => 0 | .pin => 1 | .clockLoss => 2 | .thermal => 3

/-- R354: CLEAN of a reset that begins now. -/
def cleanNow (s : State) : Bool :=
  oLines s == 0 && (List.finRange 16).all (fun k => (s.slc k).wbuf.isEmpty) && !s.cons.contained

/-- R204, R209: the straps are kept by a reset; a primary has index 0. -/
def resetDom (s : State) : Dom := { straps := s.dom.straps, index := if isPrimary s then some 0 else none }

/-- R352, R360, R361: the state in which a reset of type POWER_ON, PIN, CLOCK_LOSS or THERMAL leaves the device: everything at its
reset value but the always-on island, the MRAM, the flash and the fuses. Memory modules keep their records. -/
def coreReset (t : ResetType) (s : State) : State :=
  { pending := s.pending, out := s.out, fresh := s.fresh, fuses := s.fuses,
    ports := s.ports.map fun x => { mem := keptRecords s x.mem },
    prot := { selftestNext := s.prot.selftestNext },
    cons := { latch := s.cons.latch },
    mgmt := { locked := (t == .clockLoss || t == .thermal) && s.mgmt.locked },
    dom := resetDom s,
    clk := { s.clk with
      reset := some t, lastReset := t, resetAt := nowNs s, pllLocked := [], spindle := .fallback, trace := .fallback,
      switching := s.clk.switching.filter (· == 0), switchWait := s.clk.switchWait.filter (· == 0), gates := [],
      step := 2, stepDone := [1, 2], failedStep := none, hbmFail := 0, ledgerFail := false, selftestFail := false, fwReady := false,
      homeOwn := false, avs := 750 },
    cal := s.cal,
    led := { s.led with mounted := false, held := s.led.held.filter (·.1 == 0x0C) },
    sec := { slotA := s.sec.slotA, slotB := s.sec.slotB },
    hst := {} }

/-- R372: the reset marker written. -/
def writeMarker (v : Nat) (s : State) : State := { s with led := { s.led with marker := v, markerAt := nowNs s } }

/-- R354, R422: a reset of type PIN, CLOCK_LOSS or THERMAL begins: CLEAN is latched, and the marker written when it is 1. One that
begins while another holds latches nothing new, and is recorded as THERMAL when it is one. -/
def beginReset (t : ResetType) (s : State) : State :=
  match s.clk.reset with
  | some old =>
    if t == .thermal && old != .powerOn then { s with clk := { s.clk with reset := some t, lastReset := t } } else s
  | none =>
    let clean := cleanNow s
    let s1 := if clean then writeMarker 2 s else s
    let s2 := coreReset t s1
    { s2 with clk := { s2.clk with clean := clean } }

/-- R343, R353, R422: a reset is released when PWRGOOD is asserted, RESET_N deasserted, REFCLK qualified, the always-on island has
ended steps 1 and 2, and THERM_N is deasserted. -/
def tryRelease (s : State) : State :=
  if s.clk.reset.isSome && s.clk.pwrgood && s.clk.resetN && s.clk.refQualified && s.clk.stepDone.contains 2 && !s.clk.thermN then
    { s with clk := { s.clk with reset := none } }
  else s

/-- R361, R371: the always-on island loses its state: the calendar is invalid, and the stalagmite counters hold what the ledger
holds. -/
def islandLost (s : State) : State :=
  { s with
    cal := {},
    clk := { s.clk with halfValid := false, oscQualified := false, monitor := false, goodWindows := 0, refQualified := false, gap := false,
                        fallbackOk := true, fbBad := 0, fbGood := 0, aon := .fallback, switching := [], switchWait := [], forced := 0,
                        step := 0, stepDone := [], clean := true, hot := false },
    led := { s.led with held := [], stal := s.led.stal.map fun x => { x with value := x.written } } }

/-! ## Pins (R352 to R354, R361) -/

/-- R8, R352, R361: PWRGOOD is lost: everything but the MRAM and the flash; the DRAM of the modules fails its checks from then on
(R181). -/
def pwrgoodDeassert (s : State) : State :=
  if s.clk.pwrgood then
    let s1 := islandLost (coreReset .powerOn s)
    { s1 with
      ports := s1.ports.map fun _ => {}, prot := {}, mgmt := {},
      clk := { s1.clk with pwrgood := false, thermN := false, clean := s.clk.clean } }
  else s

/-- PWRGOOD_DEASSERT (R361). -/
def execPwrgoodDeassert (s : State) : Host.Outcome State Fault Refusal := runReset pwrgoodDeassert s

/-- R352: PWRGOOD is asserted: the POWER_ON reset; the time since PWRGOOD counts from here. -/
def pwrgoodAssert (s : State) : State :=
  if s.clk.pwrgood then s
  else { s with clk := { s.clk with pwrgood := true, half := 0, halfValid := true, reset := some .powerOn, lastReset := .powerOn, resetAt := 0 } }

/-- PWRGOOD_ASSERT (R352). -/
def execPwrgoodAssert (s : State) : Host.Outcome State Fault Refusal := runReset pwrgoodAssert s

/-- R354: RESET_N is asserted: a PIN reset. -/
def resetAssert (s : State) : State :=
  if !s.clk.resetN then s
  else
    let s1 := { s with clk := { s.clk with resetN := false } }
    let s2 := if s.clk.pwrgood then beginReset .pin s1 else s1
    { s2 with mgmt := { s2.mgmt with locked := false } }

/-- RESET_N_ASSERT (R354). -/
def execResetNAssert (s : State) : Host.Outcome State Fault Refusal := runReset resetAssert s

/-- R204: a strap setting that is not valid: STRAP[3] high, or a secondary without a ring. -/
def strapsBad (straps : BitVec 4) : Bool := straps.getLsbD 3 || (!(straps.getLsbD 1) && !(straps.getLsbD 2))

/-- R204, R353, R409: RESET_N is deasserted: the straps are sampled, and the TAP is held in Test-Logic-Reset. -/
def resetDeassert (straps : BitVec 4) (s : State) : State :=
  if s.clk.resetN then s
  else
    tryRelease { s with
      dom := { s.dom with straps := straps, index := if straps.getLsbD 1 then some 0 else none },
      clk := { s.clk with resetN := true, strapInvalid := strapsBad straps },
      hst := { s.hst with tapIr := 2 } }

/-- RESET_N_DEASSERT (R204). -/
def execResetNDeassert (straps : BitVec 4) (s : State) : Host.Outcome State Fault Refusal := runReset (resetDeassert straps) s

/-! ## PERST_N (R362) -/

/-- The SPDM sessions and connection of a transport instance end. -/
def endInstance (s : State) (inst : Nat) : State :=
  { s with sec := { s.sec with
    sessions := s.sec.sessions.filter (·.inst != inst), connected := s.sec.connected.filter (· != inst),
    negotiated := s.sec.negotiated.filter (· != inst) } }

/-- R352, R362, R404: PERST_N is asserted: the endpoint, its configuration space, the MSI-X table and pending bits; events held stay
held (R403). -/
def perstAssert (s : State) : State :=
  let vs := s.hst.vectors.map fun (x : Vector32) => { held := x.held }
  let s1 := endInstance s 0
  { s1 with
    clk := { s1.clk with perstN := false },
    hst := { s1.hst with msixEnable := false, busMaster := false, vectors := vs, table := [], d3hot := false, cfgReady := false,
                         pcieRate := 0, pcieWidth := 0, pcieFlit := false, pcieReversed := false,
                         doeObject := none, doeError := false } }

/-- PERST_N_ASSERT (R362). -/
def execPerstNAssert (s : State) : Host.Outcome State Fault Refusal := runCmd perstAssert s

/-- PERST_N_DEASSERT (R362): the endpoint becomes configuration-ready by PCIE_CONFIGURATION_READY. -/
def execPerstNDeassert (s : State) : Host.Outcome State Fault Refusal :=
  runCmd (fun s => { s with clk := { s.clk with perstN := true } }) s

/-! ## Junction temperature (R373, R422) -/

/-- R373: the junction has risen above 85 C after having been below 45 C since the last count; temperatures in 0.1 C. -/
def thermalCycle (t : Int) (s : State) : State :=
  if t < 450 then { s with clk := { s.clk with hot := true } }
  else if 850 < t ∧ s.clk.hot then stalAdd { s with clk := { s.clk with hot := false } } 4 0 1
  else s

/-- R422: the junction sensors are read: MAX_TJ and THERMAL_CYCLES; a reading above 110 C asserts THERM_N and begins a THERMAL
reset. The junction temperature is the highest reading. -/
def junctionRead (temps : List Int) (s : State) : State :=
  match temps with
  | [] => s
  | t0 :: ts =>
    if !s.clk.pwrgood then s
    else
      let t := ts.foldl max t0
      let s1 := stalRaise (thermalCycle t s) 5 0 t.toNat
      if 1100 < t then beginReset .thermal { s1 with clk := { s1.clk with thermN := true } } else s1

/-- JUNCTION_TEMP_READ (R422). -/
def execJunctionTempRead (temps : List Int) (s : State) : Host.Outcome State Fault Refusal := runReset (junctionRead temps) s

/-- R422: every reading has stayed below 90 C for 1 s: the reset is released as far as heat is concerned, and THERM_N deasserted. -/
def thermalRelease (s : State) : State :=
  if s.clk.thermN then tryRelease { s with clk := { s.clk with thermN := false } } else s

/-- THERMAL_RELEASE (R422). -/
def execThermalRelease (s : State) : Host.Outcome State Fault Refusal := runReset thermalRelease s

end Sys2Proof.Machine
end

