-- ==== Sys2Proof/Machine/Clocks.lean ====
section
/-! DEFINITION. Clocks: the fallback oscillator and the clock monitor (R341 to R345), clock switches (R346 to R348), PLLs (R340) and
gated clocks (R350, R351). -/

namespace Sys2Proof.Machine
open Sys2Proof

/-- Table LED-4: a CLOCK_EVENT of a kind and unit, held in the always-on island until the ledger can be written. -/
def clockEvent (s : State) (kind unit : Nat) : State := ledgerRecord s 0x0C (leBytes 1 kind ++ leBytes 1 unit)

/-! ## Clock switches (R346 to R348): domain 0 always-on, 1 Spindle, 2 trace -/

/-- R346: a switch is requested; one requested while a switch of the domain is in progress waits. -/
def requestSwitch (s : State) (d : Nat) : State :=
  if s.clk.switching.contains d then { s with clk := { s.clk with switchWait := s.clk.switchWait ++ [d] } }
  else { s with clk := { s.clk with switching := s.clk.switching ++ [d] } }

/-- The other source. -/
def otherSource : AonSource → AonSource | .fallback => .reference | .reference => .fallback

/-- R348: time lost by the always-on domain is added to its timers, the calendar and the count since PWRGOOD. -/
def addLost (ns : Nat) (s : State) : State :=
  let t := s.cal.ns + ns
  { s with cal := { s.cal with ns := t % 1000000000, sec := s.cal.sec + t / 1000000000 }, clk := { s.clk with half := s.clk.half + 2 * ns } }

/-- R346: the domain runs from its other source; the switch that waits begins. -/
def switchDone (d : Nat) (s : State) : State :=
  let c := s.clk
  let again := c.switchWait.contains d
  let c1 := { c with switching := if again then c.switching else c.switching.filter (· != d), switchWait := removeFirst d c.switchWait }
  match d with
  | 0 => { s with clk := { c1 with aon := otherSource c.aon } }
  | 1 => { s with clk := { c1 with spindle := otherSource c.spindle } }
  | _ => { s with clk := { c1 with trace := otherSource c.trace } }

/-- R355: step 2 ends when the always-on domain runs from REFCLK/4. -/
def aonSwitched (s : State) : State :=
  if s.clk.aon == .reference && s.clk.stepDone.contains 1 then tryRelease (stepEnd s 2) else s

/-- R346, R347, R348: a switch of a domain ends; it adds the time lost to the timers of the always-on domain. -/
def endSwitch (d lost : Nat) (s : State) : State :=
  let s1 := switchDone d s
  if d = 0 then aonSwitched (addLost lost s1) else s1

/-- R346: a switch with the handshake loses 4 outgoing and 4 incoming cycles, 320 ns of the always-on domain. -/
def clockSwitch (d : Nat) (s : State) : State := if s.clk.switching.contains d then endSwitch d 320 s else s

/-- CLOCK_SWITCH (R346). -/
def execClockSwitch (domain : Nat) (s : State) : Host.Outcome State Fault Refusal := runReset (clockSwitch domain) s

/-- R347: a forced switch: 64 incoming periods, counted and recorded. -/
def switchForced (d : Nat) (s : State) : State :=
  if s.clk.switching.contains d then
    let s1 := clockEvent s 6 d
    endSwitch d 2560 { s1 with clk := { s1.clk with forced := min (s1.clk.forced + 1) 65535 } }
  else s

/-- SWITCH_FORCED (R347). -/
def execSwitchForced (domain : Nat) (s : State) : Host.Outcome State Fault Refusal := runReset (switchForced domain) s

/-! ## Reference and fallback (R341 to R345) -/

/-- R344, R345: REFCLK qualification is lost: a CLOCK_LOSS reset, and the always-on island switches to the fallback oscillator; without
one the island stops, and what its CLEAN latch then holds is left open. -/
def refclkLost (s : State) : State :=
  let c := { s.clk with refQualified := false, goodWindows := 0, fbBad := 0, fbGood := 0 }
  let s1 := beginReset .clockLoss (clockEvent { s with clk := c } 3 0)
  if s.clk.fallbackOk then (if s1.clk.aon == .reference then requestSwitch s1 0 else s1)
  else
    let (x, s2) := freshNat (islandLost s1)
    { s2 with clk := { s2.clk with clean := x % 2 == 1 } }

/-- R343: no REFCLK edge for 200 ns: the latch is set; a qualified REFCLK is lost (R342). -/
def refclkGap (s : State) : State :=
  if s.clk.pwrgood then
    let s1 := { s with clk := { s.clk with gap := true } }
    if s.clk.refQualified then refclkLost s1 else s1
  else s

/-- REFCLK_GAP (R343). -/
def execRefclkGap (s : State) : Host.Outcome State Fault Refusal := runReset refclkGap s

/-- R341 to R343: the fallback oscillator is qualified: step 1 ends and the monitor is enabled; a gap found then is recorded. -/
def oscillatorQualified (s : State) : State :=
  if s.clk.pwrgood && !s.clk.oscQualified then
    let s1 := if s.clk.gap then clockEvent s 2 0 else s
    stepEnd { s1 with clk := { s1.clk with oscQualified := true, monitor := true, goodWindows := 0, gap := false } } 1
  else s

/-- OSCILLATOR_QUALIFIED (R341). -/
def execOscillatorQualified (s : State) : Host.Outcome State Fault Refusal := runReset oscillatorQualified s

/-- R342: a monitor window ends, whose count was in range or not; 8 consecutive good windows qualify REFCLK, and a window that is not
good loses it. -/
def monitorWindow (inRange : Bool) (s : State) : State :=
  if !s.clk.monitor then s
  else
    let good := inRange && !s.clk.gap
    let s1 := { s with clk := { s.clk with gap := false } }
    if s.clk.refQualified then (if good then s1 else refclkLost s1)
    else
      let n := if good then s.clk.goodWindows + 1 else 0
      let s2 := { s1 with clk := { s1.clk with goodWindows := min n 8, refQualified := decide (8 ≤ n) } }
      if n < 8 then s2 else tryRelease (if s2.clk.aon == .fallback then requestSwitch s2 0 else s2)

/-- MONITOR_WINDOW_END (R342). -/
def execMonitorWindowEnd (good : Bool) (s : State) : Host.Outcome State Fault Refusal := runReset (monitorWindow good) s

/-- R345: a window of the reciprocal check ends: two consecutive bad ones mark the fallback oscillator unavailable, two good ones
available again. -/
def fallbackWindow (good : Bool) (s : State) : State :=
  if !s.clk.refQualified then s
  else
    let bad := if good then 0 else min (s.clk.fbBad + 1) 2
    let fine := if good then min (s.clk.fbGood + 1) 2 else 0
    let s1 := { s with clk := { s.clk with fbBad := bad, fbGood := fine } }
    if s.clk.fallbackOk && bad == 2 then clockEvent { s1 with clk := { s1.clk with fallbackOk := false } } 4 0
    else if !s.clk.fallbackOk && fine == 2 then clockEvent { s1 with clk := { s1.clk with fallbackOk := true } } 5 0
    else s1

/-- FALLBACK_CHECK_WINDOW (R345). -/
def execFallbackCheckWindow (good : Bool) (s : State) : Host.Outcome State Fault Refusal := runCmd (fallbackWindow good) s

/-! ## PLLs (R340): 0 Core, 1-4 HBM, 5 PCIe, 6 Spindle, 7 Trace, 8+k port k -/

/-- R351: the PLL of a gated port that has stopped. -/
def pllStopped (s : State) (pll : Nat) : Bool := s.clk.gates.any fun g => g.level == 4 && g.index + 8 == pll && g.stopped

/-- R340: a PLL locks, once no reset holds and REFCLK is qualified; the Spindle and trace domains switch back after a relock. -/
def pllLock (pll : Nat) (s : State) : State :=
  if s.clk.reset.isSome || !s.clk.refQualified || s.clk.pllLocked.contains pll || pllStopped s pll then s
  else
    let s1 := { s with clk := { s.clk with pllLocked := s.clk.pllLocked ++ [pll] } }
    if s.clk.stepDone.contains 3 && (pll == 6 || pll == 7) then requestSwitch s1 (pll - 5) else s1

/-- PLL_LOCK (R340). -/
def execPllLock (pll : Fin 32) (s : State) : Host.Outcome State Fault Refusal := runCmd (pllLock pll.val) s

/-- R340, Table CLK-1: a PLL loses lock: recorded; a CLOCK_LOSS reset, a switch to REFCLK bypass, or a link down. -/
def pllLoss (pll : Nat) (s : State) : State :=
  if !(s.clk.pllLocked.contains pll) then s
  else
    let s1 := clockEvent { s with clk := { s.clk with pllLocked := s.clk.pllLocked.filter (· != pll) } } 1 pll
    if pll ≤ 5 then tryRelease (beginReset .clockLoss s1)
    else if pll = 6 then (if s1.clk.spindle == .reference then requestSwitch s1 1 else s1)
    else if pll = 7 then (if s1.clk.trace == .reference then requestSwitch s1 2 else s1)
    else if h : pll - 8 < 24 then latch s (lossOfSignal ⟨pll - 8, h⟩ s1)
    else s1

/-- PLL_LOSS_OF_LOCK (R340). -/
def execPllLossOfLock (pll : Fin 32) (s : State) : Host.Outcome State Fault Refusal := runReset (pllLoss pll.val) s

/-! ## Gated clocks (R350, R351) -/

/-- A node's clock stopped or running. -/
def setStopped (s : State) (nodes : List (Nat × Nat × Nat)) (v : Bool) : State :=
  { s with clk := { s.clk with gates := s.clk.gates.map fun g => if nodes.contains (g.level, g.index, g.sub) then { g with stopped := v } else g } }

/-- R350, R351: a node whose GATE_REQ is set has had no open work for 4,096 cycles: its clock stops, and the PLL of a port with it. -/
def gateStop (level index sub : Nat) (s : State) : State :=
  let n := gateSub level sub
  if gateReq s level index n && !(gateWork s level index n) then
    let s1 := setStopped s [(level, index, n)] true
    if level = 4 then { s1 with clk := { s1.clk with pllLocked := s1.clk.pllLocked.filter (· != index + 8) } } else s1
  else s

/-- GATE_STOP (R350). -/
def execGateStop (level : Nat) (index : Nat) (sub : Nat) (s : State) : Host.Outcome State Fault Refusal := runCmd (gateStop level index sub) s

/-- R350: a node and its ancestors restart on demand; a gated port is not woken so (R351). -/
def gateWake (level index sub : Nat) (s : State) : State :=
  if level < 4 then setStopped s (gateUp level index (gateSub level sub)) false else s

/-- GATE_WAKE (R350). -/
def execGateWake (level : Nat) (index : Nat) (sub : Nat) (s : State) : Host.Outcome State Fault Refusal := runCmd (gateWake level index sub) s

end Sys2Proof.Machine
end

