-- ==== Sys2Proof/Machine/Startup.lean ====
section
/-! DEFINITION. Start-up (R355 to R357, R255, R370, R386 to R389, R181): the steps of Table CLK-5, and the restart and the live
activation of firmware (R392, R402). -/

namespace Sys2Proof.Machine
open Sys2Proof

/-- R355: step n may end now: no reset holds, no step has failed, n has not ended, and the steps it waits for have. -/
def mayEnd (s : State) (n : Nat) (after : List Nat) : Bool :=
  s.clk.reset.isNone && s.clk.failedStep.isNone && !(s.clk.stepDone.contains n) && after.all s.clk.stepDone.contains

/-- R356, R370: a step fails, and start-up stops. -/
def stepFails (s : State) (n : Nat) : State := { s with clk := { s.clk with failedStep := some n } }

/-- Spindle starts up, or restarts. -/
def booting (s : State) : Bool := s.mgmt.state == .notReady || s.mgmt.state == .restarting

/-! ## Steps 3 and 4 -/

/-- R417: the AVS request for the fused target: steps of 5 mV within 680 to 850 mV. -/
def avsRequest (target : Nat) : Nat := max 680 (min 850 (target / 5 * 5))

/-- Step 3: every PLL has locked; Spindle and trace switch to their PLLs, and the AVS target is requested. -/
def pllsLocked (s : State) : State :=
  if mayEnd s 3 [1, 2] && (List.range 32).all s.clk.pllLocked.contains then
    stepEnd { s with clk := { s.clk with spindle := .reference, trace := .reference, avs := avsRequest s.fuses.avsTarget } } 3
  else s

/-- PLLS_LOCKED (R355). -/
def execPllsLocked (s : State) : Host.Outcome State Fault Refusal := runCmd pllsLocked s

/-- R396: the partner of the PCIe endpoint as link training finds it. -/
structure PciePartner where
  /-- the rates it supports: bits 0 to 5 for 2.5, 5, 8, 16, 32 and 64 GT/s -/
  rates : BitVec 6 := 63
  /-- the lanes over which training succeeds -/
  lanes : BitVec 8 := 255
  /-- it supports FLIT mode -/
  flit : Bool := true
  deriving DecidableEq, Repr, Inhabited

/-- R396: the rate of the PCIe link: the highest of 64, 32, 16 and 8 GT/s that both sides support; else the highest that the link
reached below them. -/
def pcieRateOf (x : PciePartner) : Nat := (([6, 5, 4, 3, 2].find? fun r => x.rates.getLsbD (r - 1))).getD 1

/-- R396: the widest of x8, x4, x2 and x1 whose lanes train, from lane 0, or from lane 7 when the lanes are reversed; and which. -/
def pcieWidthOf (lanes : BitVec 8) : Option (Nat × Bool) :=
  [8, 4, 2, 1].findSome? fun w =>
    if (List.range w).all fun i => lanes.getLsbD i then some (w, false)
    else if (List.range w).all fun i => lanes.getLsbD (7 - i) then some (w, true)
    else none

/-- R396: FLIT mode is used where both sides support it, and always at 64 GT/s. -/
def pcieFlitOf (x : PciePartner) : Bool := x.flit || pcieRateOf x == 6

/-- R396: the partner that link training finds, over at least one lane: a free value (assumption 89). -/
def partnerOf (x : Nat) : PciePartner :=
  let lanes := BitVec.ofNat 8 (x / 64)
  { rates := BitVec.ofNat 6 x, lanes := if (pcieWidthOf lanes).isNone then 1 else lanes, flit := x / 16384 % 2 == 1 }

/-- R396: the PCIe link as it trains with a partner; without a lane that trains there is no link. -/
def pcieTrain (x : PciePartner) (s : State) : State :=
  match pcieWidthOf x.lanes with
  | some (w, rev) => { s with hst := { s.hst with
      cfgReady := true, pcieRate := pcieRateOf x, pcieWidth := w, pcieFlit := pcieFlitOf x, pcieReversed := rev } }
  | none => s

/-- Step 4, R362, R396: the PCIe link has trained and the endpoint is configuration-ready, after a reset of the device or of the
endpoint. -/
def pcieReady (s : State) : State :=
  if s.clk.reset.isNone && s.clk.perstN && s.clk.stepDone.contains 3 then
    let x := freshNat s
    let s1 := pcieTrain (partnerOf x.1) x.2
    if mayEnd s 4 [3] then stepEnd s1 4 else s1
  else s

/-- PCIE_CONFIGURATION_READY (R355, R396). -/
def execPcieConfigurationReady (s : State) : Host.Outcome State Fault Refusal := runCmd pcieReady s

/-! ## Step 5: checker self-test (R255) -/

/-- The units of a failed-unit mask: 0-3 HBM controllers, 4-27 codecs of ports 0-23, 28 TCM, 29 directory-cache SEC-DED, 30 parity
checkers, 31 triplication voters. The spec does not number them (DESIGN CHOICE). -/
def holdsHome (failed : Nat) : Bool := bits failed 3 0 != 0 || bitOf failed 29 || bitOf failed 31

/-- R255: the checker self-test ends; the record follows once the error log exists. -/
def selftestDone (failed : Nat) (s : State) : State :=
  if mayEnd s 5 [3] then
    let s1 := { s with
      ports := Vector.ofFn fun p => let x := s.ports[p]; { x with link := { x.link with codecRestricted := bitOf failed (4 + p.val) } },
      prot := { s.prot with selftestFailed := failed, selftestNext := false },
      clk := { s.clk with selftestFail := holdsHome failed } }
    let s2 := stepEnd (ledgerRecord s1 0x10 (leBytes 1 (b2n s.prot.selftestNext) ++ leBytes 8 failed)) 5
    if bitOf failed 28 then halt 3 s2 else s2
  else s

/-- CHECKER_SELFTEST_DONE (R255). -/
def execCheckerSelftestDone (failed : Nat) (s : State) : Host.Outcome State Fault Refusal := runCmd (selftestDone failed) s

/-! ## Step 6: firmware (R386, R387, R392, R402) -/

/-- Table LED-4: the BOOT record of a slot tried. -/
def bootRecord (s : State) (slot : Nat) : State :=
  let im := (slotImage s slot).getD { version := 0, svn := 0 }
  ledgerRecord s 0x0D (leBytes 1 slot ++ leBytes 1 (slotResult s slot) ++ leBytes 4 im.version ++ leBytes 4 im.svn)

/-- The image of a slot starts. -/
def startSlot (s : State) (slot : Nat) : State := { s with sec := { s.sec with active := slot, running := slotImage s slot } }

/-- R387: a slot that booted in place of the first becomes BOOT_PREF, when the ledger has a root. -/
def preferSlot (s : State) (slot : Nat) : State := if (rootValue s).isSome then setBootPref s slot else s

/-- R387: the boot ROM chooses a slot, or enters recovery, in which the first slot tried counts as running (R389). -/
def boot (s : State) : State :=
  let first := nextSlot s
  let other := 1 - first
  let s1 := bootRecord s first
  if slotVerifies s first then startSlot s1 first
  else
    let s2 := bootRecord s1 other
    if slotVerifies s other then startSlot (preferSlot s2 other) other
    else { s2 with sec := { s2.sec with active := first, running := none } }

/-- R402: the active slot is loaded again; when it does not verify, Spindle is halted again. -/
def reboot (s : State) : State :=
  let s1 := bootRecord s s.sec.active
  if slotVerifies s s.sec.active then startSlot s1 s.sec.active
  else { s1 with mgmt := { s1.mgmt with state := .halted } }

/-- R392 step 3: the named slot is verified; on failure the running slot starts again and the command ends. -/
def liveBoot (slot : Nat) (s : State) : State :=
  let s1 := bootRecord s slot
  if slotVerifies s slot then startSlot s1 slot
  else endWorks { s1 with mgmt := { s1.mgmt with state := .running, handover := none } } 0x0B02 (replyNo 0x0B01)

/-- Step 6, and the boot ROM's verification in a restart and in a live activation. -/
def bootVerify (s : State) : State :=
  if s.clk.reset.isSome then s
  else match s.mgmt.state with
    | .notReady => if mayEnd s 6 [5] then stepEnd (boot s) 6 else s
    | .restarting =>
      let s1 := reboot s
      if mayEnd s 6 [5] && s1.mgmt.state == .restarting then stepEnd s1 6 else s1
    | .liveActivation =>
      (match s.mgmt.handover with | some (slot, _) => if s.sec.active = slot then s else liveBoot slot s | none => s)
    | _ => s

/-- BOOT_SLOT_VERIFY (R387). -/
def execBootSlotVerify (s : State) : Host.Outcome State Fault Refusal := runCmd bootVerify s

/-! ## Step 7: the ledger is mounted (R370, R372) -/

/-- R354, R372: the last reset was unclean. -/
def wasUnclean (s : State) : Bool := if s.clk.lastReset == .powerOn then s.led.marker == 1 else !s.clk.clean

/-- R373, Table LED-4: what the mount counts and records of the last reset. -/
def recordReset (s : State) : State :=
  let un := wasUnclean s
  let s1 := if s.clk.lastReset == .powerOn then stalAdd s 2 0 1 else s
  let s2 := if un then stalAdd s1 3 0 1 else s1
  ledgerAppend s2 0x0B (leBytes 1 (resetNumber s.clk.lastReset) ++ leBytes 1 (b2n (!un)) ++ leBytes 8 s.clk.resetAt)

/-- R254: the banks the ledger excludes, in ledger order. -/
def ledgerBanks (s : State) : List (Nat × Nat × Nat × Nat) :=
  (s.led.retirements.filter fun r => r.1 == 2).map fun r => (r.2.1, r.2.2.1, r.2.2.2.1, r.2.2.2.2.1)

/-- R253, R254: spare blocks are assigned again for a bank, ROW by ROW. -/
def relocateBank (s : State) (i : Nat) (bank : Nat × Nat × Nat × Nat) : State :=
  (List.range (metaRows s.fuses.is144)).foldl (fun s row =>
    let b := blockOf s.fuses.is144 bank.1 bank.2.1 bank.2.2.1 bank.2.2.2 row
    if b * 4096 < cacheBase then (match nextSpareBlock s with | some spare => relocPut s (i * 8192 + row) spare | none => s) else s) s

/-- R254 step 1: the excluded banks and the relocation table are restored. -/
def restoreBanks (s : State) : State :=
  let banks := ledgerBanks s
  (banks.zipIdx).foldl (fun s x => relocateBank s x.2 x.1) (s.updHbm fun h => { h with banks := banks, reloc := [], nextSpare := 0, bankJob := none })

/-- R370: the ledger is mounted: what it holds is applied, the reset and the containment latch are recorded, the records held are
written, the latch is cleared and the marker made IDLE. A mount without a valid root fails. -/
def ledgerMount (s : State) : State :=
  if booting s && mayEnd s 7 [6] then
    if (rootValue s).isNone then stepFails { s with clk := { s.clk with ledgerFail := true } } 7
    else
      let ext := (s.led.retirements.filter fun r => r.1 == 0).map (·.2)
      let s1 := restoreBanks { s with led := { s.led with mounted := true }, pool := { s.pool with retiredExt := ext } }
      let s2 := ledgerContainment (recordReset s1)
      let s3 := { s2 with cons := { s2.cons with latch := none } }
      stepEnd (writeMarker 0 (ledgerFlush s3)) 7
  else s

/-- LEDGER_MOUNT (R370). -/
def execLedgerMount (s : State) : Host.Outcome State Fault Refusal := runCmd (fun s => settleFault s (ledgerMount (wordRead s 4 0))) s

/-! ## Steps 8 and 9 (R356, R254) -/

/-- R161: the stacks are trained; RAAIMT and RAAMMT are read from their mode registers, whose contents are left open. -/
def trainStack (s : State) (i : Fin 4) : State :=
  let (x, s1) := freshNat s
  let (y, s2) := freshNat s1
  s2.updStack i fun st => { st with trained := true, raaimt := x, raammt := y, retrainPending := false }

/-- Step 8. -/
def hbmTrained (fails : BitVec 4) (s : State) : State :=
  if booting s && mayEnd s 8 [7] then
    let ok := (List.finRange 4).filter fun (i : Fin 4) => !(fails.getLsbD i.val)
    let s1 := ok.foldl trainStack s
    if fails = 0 then stepEnd s1 8 else stepFails { s1 with clk := { s1.clk with hbmFail := fails } } 8
  else s

/-- HBM_TRAINED (R355). -/
def execHbmTrained (fails : BitVec 4) (s : State) : Host.Outcome State Fault Refusal := runCmd (hbmTrained fails) s

/-- R254 step 2: frames that the ledger retires, and those of the excluded banks. -/
def framesRetired (s : State) : List Nat :=
  ((s.led.retirements.filter fun r => r.1 == 1).map (·.2.1)) ++ s.hbm.banks.flatMap (bankFrames s.fuses.is144)

/-- R356: every structure is initialised, and the error log is empty; the self-test's record is its first (R255). -/
def initialise (s : State) : State :=
  let s1 := { s with
    slices := Vector.replicate 16 {},
    hbm := { s.hbm with frames := [], cache := .enabled, initDone := true },
    prot := { s.prot with log := [], nextSeq := 0, rct := [] } }
  let s2 := (framesRetired s1).foldl (fun s f => frameSet s { num := f, state := .retired }) s1
  logError s2 { cls := 0x0F, severity := if s.prot.selftestFailed = 0 then 0 else 3, srcKind := 7, src := 0, detail := s.prot.selftestFailed }

/-- Step 9. -/
def metadataInitialised (s : State) : State := if booting s && mayEnd s 9 [8] then stepEnd (initialise s) 9 else s

/-- METADATA_INITIALISED (R356). -/
def execMetadataInitialised (s : State) : Host.Outcome State Fault Refusal := runCmd metadataInitialised s

/-! ## Step 10: firmware ready (R388, R389, R392, R402) -/

/-- R211: on a device without a ring, step 11 counts as ended, and domain time starts at 0. -/
def skipRing (s : State) : State :=
  stepEnd { s with dom := { s.dom with time := 0, timeRun := true, timeValid := true } } 11

/-- Firmware, or the boot ROM in recovery, serves: MGMT_FAULT ends (R402), the configuration digest is that of
the values in force (R384), SVN_MIN is raised (R388), and held records are written. -/
def serves (st : MgmtState) (s : State) : State :=
  let s1 := { s with mgmt := { s.mgmt with state := st, fault := false, digest := configDigest s }, clk := { s.clk with fwReady := true } }
  ledgerFlush (if st == .running then raiseSvn s1 else s1)

/-- Step 10, and step 11 of a device without a ring; a primary begins to form its ring (R208). -/
def startService (s : State) : State :=
  let st : MgmtState := if s.sec.running.isSome then .running else .recovery
  let s1 := stepEnd (serves st s) 10
  if !(ringEn s1) then skipRing s1
  else if onRing s1 && isPrimary s1 && st == .running then sendForm s1
  else s1

/-- R392 step 4: the new firmware completes the activation; a primary sends its undelivered decisions again. -/
def liveDone (slot : Nat) (s : State) : State :=
  let s1 := serves .running { s with mgmt := { s.mgmt with handover := none } }
  let s2 := endWorks (fwUpdateRecord (setBootPref s1 slot) 2 slot) 0x0B02 replyOk
  if isPrimary s2 && ringCarries s2 then sendDecisions s2 else s2

/-- Firmware reports ready. -/
def firmwareReady (s : State) : State :=
  if s.clk.reset.isSome then s
  else match s.mgmt.state with
    | .notReady => if mayEnd s 10 [4, 6, 9] then startService s else s
    | .restarting =>
      if mayEnd s 10 [4, 6, 9] && s.sec.running.isSome then startService s
      else if s.clk.stepDone.contains 10 && s.sec.running.isSome then serves .running s
      else s
    | .liveActivation =>
      (match s.mgmt.handover with | some (slot, _) => if s.sec.active = slot then liveDone slot s else s | none => s)
    | _ => s

/-- FIRMWARE_READY (R388). -/
def execFirmwareReady (s : State) : Host.Outcome State Fault Refusal := runCmd firmwareReady s

/-! ## Steps 13 to 15 (R181, R254, R355, R357) -/

/-- Step 13: every memory port is ACTIVE, or 100 ms have passed. -/
def memorySettle (expired : Bool) (s : State) : State :=
  if mayEnd s 13 [12] && (expired || (List.finRange 24).all fun p => !(isMem s p) || portUp s p) then stepEnd s 13 else s

/-- MEMORY_PORT_SETTLE (R355). -/
def execMemoryPortSettle (expired : Bool) (s : State) : Host.Outcome State Fault Refusal := runCmd (memorySettle expired) s

/-- R165, R181: the ports that contribute receive their ranges in ascending order, and their records are read. -/
def rebuildPorts (failed : List Nat) : List (Fin 24) → Nat → State → State
  | [], _, s => s
  | p :: ps, base, s =>
    match (s.port p).mem.desc with
    | some d =>
      if (s.port p).mem.taken then rebuildPorts failed ps (base + extentsOf d.capGiB) (addPort s p d base failed) else rebuildPorts failed ps base s
    | none => rebuildPorts failed ps base s

/-- R238: a missing copy of a TRIPLE extent that finds no spare. -/
def noteDegraded (s : State) (c : Nat × Nat) : State :=
  match fxEntry s c.1 with
  | some e => if (sparePort s e c.2).isSome then s else logClass s 0x08 6 0 (some (1, fabricOf s (c.1 * 2 ^ 21))) (some e.part)
  | none => s

/-- R254: the retirements of the ledger applied to every port that contributes. -/
def retireAll (s : State) : State :=
  (List.finRange 24).foldl (fun s p => match (s.port p).mem.desc with | some d => if (s.port p).mem.taken then applyRetired s p d else s | none => s) s

/-- Table HOST-8: PEAK of the pool watermark is loaded with FREE. -/
def loadPeak (s : State) : State :=
  { s with mgmt := { s.mgmt with wms := s.mgmt.wms.set 48 { s.mgmt.wms[48] with peak := freeExtents s } } }

/-- R235: the backing extents whose entries a line of the page map holds: of the fabric extent table, every copy of its eight
extents. -/
def mapLineBx (s : State) (ha : Nat) : List Nat :=
  if ha < 0x250000000 then
    let first := (ha - 0x240000000) / 8
    (s.pool.fxs.filter fun e => decide (first ≤ e.fx ∧ e.fx < first + 8)).flatMap fun e => (allCopies s e).map (·.2)
  else if ha < 0x270000000 then [(ha - 0x250000000) / 64]
  else (List.range 8).map fun i => (ha - 0x270000000) / 8 + i

/-- R235: the lines of the page map that could not be corrected have been rebuilt from the extent records; an extent whose record fails
becomes LOST, and the reads that waited go on. -/
def mapRebuild (failed : List Nat) (s : State) : State :=
  let bxs := (s.pool.mapLost.flatMap (mapLineBx s)).filter failed.contains
  let s1 := s.pool.mapLost.foldl (fun s ha => hbmAccess s ha 0 true) (bxs.foldl recordFails s)
  let s2 := s1.updPool fun q => { q with mapLost := [] }
  (List.finRange 16).foldl (fun s k =>
    let held := (s.slc k).mapHeld
    held.foldl (fun s r => settle (runPass s k .returnPass 0 (fun s => mapReturn s k r.why) none 1) k)
      (s.updSlc k fun sl => { sl with mapHeld := [] })) s2

/-- Step 14: the page map and the pool are rebuilt; `failed` names the extents whose records fail, by their new BX. Later the records
are read again for the lines of the page map that could not be corrected (R235), and for the modules that are back (R189). -/
def poolRebuild (failed : List Nat) (s : State) : State :=
  if mayEnd s 14 [13] then
    let s1 := retireAll (rebuildPorts failed (List.finRange 24) 0 s)
    let s2 := s1.pool.degraded.foldl noteDegraded s1
    stepEnd (loadPeak (rootAll (s2.updPool fun q => { q with rebuilt := true }))) 14
  else if s.pool.rebuilt && s.clk.reset.isNone then settleAll ((List.finRange 24).foldl (verifyPort failed) (mapRebuild failed s))
  else s

/-- POOL_REBUILD (R181). -/
def execPoolRebuild (failed : List Nat) (s : State) : Host.Outcome State Fault Refusal := runCmd (poolRebuild failed) s

/-- R357: the conditions for releasing HOME_READY. -/
def mayRelease (s : State) : Bool :=
  mayEnd s 15 [14] && !s.clk.strapInvalid && !s.clk.selftestFail && s.clk.stepDone.contains 9 && (s.dom.formed || !(ringEn s)) && s.mgmt.committed

/-- R357, R372: HOME_READY is released, and the marker reads RUNNING. -/
def homeRelease (s : State) : State :=
  if mayRelease s then stepEnd (writeMarker 1 { s with clk := { s.clk with homeOwn := true } }) 15 else s

/-- HOME_READY_RELEASE (R357). -/
def execHomeReadyRelease (s : State) : Host.Outcome State Fault Refusal := runCmd homeRelease s

/-- HOME_READY_LINE_CHANGE (R359): the line as the other devices drive it. -/
def execHomeReadyLineChange (level : Bool) (s : State) : Host.Outcome State Fault Refusal :=
  runCmd (fun s => { s with clk := { s.clk with homeLine := level } }) s

end Sys2Proof.Machine
end

