-- ==== Sys2Proof/Machine/Spdm.lean ====
section
/-! DEFINITION. SPDM (R380 to R384): the device as a responder. Responses are code, parameters and payload without the version byte,
which repeats the request's; their numbers are those of DSP0274, which the spec names (PRESUMED). -/

namespace Sys2Proof.Machine
open Sys2Proof

/-- Table LED-6: a request reaches a transport instance: 0 DOE of the endpoint, 1 MCTP, 2+k the DOE of PEER_CXL3 port k; while Spindle
cannot run none is answered. -/
def spdmUp (s : State) (inst : Nat) : Bool :=
  spindleServes s &&
  (if inst = 0 then configUp s
   else if inst = 1 then smbusUp s
   else if h : inst - 2 < 24 then personality s ⟨inst - 2, h⟩ == .peerCxl3 && (s.port ⟨inst - 2, h⟩).cxl.up else false)

/-- A response sent by an instance; on the endpoint's DOE it is a data object that waits to be read, and requests an interrupt
(R403, R404). -/
def spdmSend (inst : Nat) (bs : List Byte) (s : State) : State :=
  let s1 := s.emit (.spdm inst bs)
  if inst = 0 then raiseVector { s1 with hst := { s1.hst with doeObject := some bs.length } } 2 else s1

/-- A response: code, two parameters and a payload. -/
def spdmReply (inst code p1 p2 : Nat) (payload : List Byte) (s : State) : State :=
  spdmSend inst (leBytes 1 code ++ leBytes 1 p1 ++ leBytes 1 p2 ++ payload) s

/-- An ERROR response. -/
def spdmError (inst code data : Nat) (s : State) : State := spdmReply inst 0x7F code data [] s

/-- A request that the instance takes once it has negotiated algorithms; before that it is unexpected. -/
def negotiated (inst : Nat) (f : State → State) (s : State) : State :=
  if !(spdmUp s inst) then s
  else if s.sec.negotiated.contains inst then f s
  else spdmError inst 4 0 s

/-- GET_VERSION (R382): versions 1.2 and 1.3. -/
def getVersion (inst : Nat) (s : State) : State :=
  if spdmUp s inst then
    let s1 := { s with sec := { s.sec with
      connected := s.sec.connected.filter (· != inst) ++ [inst], negotiated := s.sec.negotiated.filter (· != inst) } }
    spdmReply inst 0x04 0 0 (leBytes 1 0 ++ leBytes 1 2 ++ leBytes 2 0x1200 ++ leBytes 2 0x1300) s1
  else s

/-- GET_VERSION (R382). -/
def execGetVersion (inst : Nat) (s : State) : Host.Outcome State Fault Refusal := runCmd (getVersion inst) s

/-- R382: a request that the instance takes once GET_VERSION has been answered. -/
def connected (inst : Nat) (f : State → State) (s : State) : State :=
  if !(spdmUp s inst) then s
  else if s.sec.connected.contains inst then f s
  else spdmError inst 4 0 s

/-- Table LED-6: CERT, CHAL, MEAS with signature, ENCRYPT, MAC, KEY_EX. -/
abbrev capabilityFlags : Nat := 0x2D6

/-- GET_CAPABILITIES (R382). -/
def execGetCapabilities (inst : Nat) (s : State) : Host.Outcome State Fault Refusal :=
  runCmd (connected inst (spdmReply inst 0x61 0 0 (leBytes 4 capabilityFlags))) s

/-- NEGOTIATE_ALGORITHMS (R382): DMTF measurements, SM3_256, SM2_P256, SM3_256, SM2_P256 and SM4_GCM, or ERROR. -/
def negotiate (inst : Nat) (offersSm : Bool) (s : State) : State :=
  if offersSm then
    let s1 := { s with sec := { s.sec with negotiated := s.sec.negotiated.filter (· != inst) ++ [inst] } }
    spdmReply inst 0x63 0 0 (leBytes 1 1 ++ leBytes 4 0x80 ++ leBytes 4 0x200 ++ leBytes 4 0x40 ++ leBytes 2 0x40 ++ leBytes 2 0x08) s1
  else spdmError inst 1 0 s

/-- NEGOTIATE_ALGORITHMS (R382). -/
def execNegotiateAlgorithms (inst : Nat) (offersSm : Bool) (s : State) : Host.Outcome State Fault Refusal :=
  runCmd (connected inst (negotiate inst offersSm)) s

/-- R381: the certificate chain of slot 0, with the header that DSP0274 gives a chain: its length and a reserved word (PRESUMED,
assumption 14). -/
def chain (s : State) : List Byte :=
  let certs := Config.certChain s.fuses.serial
  leBytes 2 (4 + certs.length) ++ leBytes 2 0 ++ certs

/-- GET_DIGESTS (R382): the digest of the chain in slot 0. -/
def execGetDigests (inst : Nat) (s : State) : Host.Outcome State Fault Refusal :=
  runCmd (negotiated inst fun s => spdmReply inst 0x01 0 1 (Config.sm3 (chain s)) s) s

/-- R381: a portion of the chain in slot 0; no other slot is populated. -/
def certificate (inst slot offset length : Nat) (s : State) : State :=
  let c := chain s
  if slot = 0 ∧ offset < c.length then
    let portion := (c.drop offset).take (length % 2 ^ 16)
    spdmReply inst 0x02 0 0 (leBytes 2 portion.length ++ leBytes 2 (c.length - offset - portion.length) ++ portion) s
  else spdmError inst 1 0 s

/-- GET_CERTIFICATE (R381). -/
def execGetCertificate (inst : Nat) (slot : Nat) (offset : Nat) (length : Nat) (s : State) : Host.Outcome State Fault Refusal :=
  runCmd (negotiated inst (certificate inst slot offset length)) s

/-- R382: what is signed: the requester's nonce, the content and the device's nonce, which is left free. -/
def signedPart (nonce : Nat) (content : List Byte) (s : State) : List Byte × State :=
  let (x, s1) := freshNat s
  (leBytes 32 x ++ Config.sm2Sign (leBytes 32 nonce ++ content ++ leBytes 32 x), s1)

/-- CHALLENGE (R382). -/
def challenge (inst slot nonce : Nat) (s : State) : State :=
  if slot = 0 then
    let d := Config.sm3 (chain s)
    let (sg, s1) := signedPart nonce d s
    spdmReply inst 0x03 0 1 (d ++ sg) s1
  else spdmError inst 1 0 s

/-- CHALLENGE (R382). -/
def execChallenge (inst : Nat) (slot : Nat) (nonce : Nat) (s : State) : Host.Outcome State Fault Refusal :=
  runCmd (negotiated inst (challenge inst slot nonce)) s

/-- Table LED-7: DMTF value type (bit 7 raw) and value of a measurement. -/
def measurement (s : State) (index : Nat) : Option (Nat × List Byte) :=
  let im := s.sec.running.getD { version := 0, svn := 0 }
  match index with
  | 1 => some (0, Config.romDigest)
  | 2 => some (1, Config.fwDigest im.version im.svn)
  | 3 => some (0x87, leBytes 4 im.version)
  | 4 => some (0x88, leBytes 4 im.svn)
  | 5 => some (3, s.mgmt.digest)
  | _ => if h : 0x40 ≤ index ∧ index < 0x58 then some (2, padTo 32 (s.port ⟨index - 0x40, by omega⟩).mem.chainDigest) else none

/-- The indices of Table LED-7. -/
def measurementIndices : List Nat := [1, 2, 3, 4, 5] ++ (List.range 24).map (0x40 + ·)

/-- A measurement block in the DMTF format. -/
def measurementBlock (s : State) (index : Nat) : List Byte :=
  match measurement s index with
  | some (t, v) => leBytes 1 index ++ leBytes 1 1 ++ leBytes 2 (v.length + 3) ++ leBytes 1 t ++ leBytes 2 v.length ++ v
  | none => []

/-- R383: index 0 asks for the number of measurements, 0xFF for all of them. -/
def measure (inst index : Nat) (signed : Bool) (nonce : Nat) (s : State) : State :=
  let is := if index = 0xFF then measurementIndices else if index = 0 then [] else [index]
  if is.all fun i => (measurement s i).isSome then
    let record := is.flatMap (measurementBlock s)
    let body := leBytes 1 is.length ++ leBytes 3 record.length ++ record
    let (sg, s1) := if signed then signedPart nonce body s else ([], s)
    spdmReply inst 0x60 (if index = 0 then measurementIndices.length else 0) 0 (body ++ sg) s1
  else spdmError inst 1 0 s

/-- GET_MEASUREMENTS (R383). -/
def execGetMeasurements (inst : Nat) (index : Nat) (signed : Bool) (nonce : Nat) (s : State) : Host.Outcome State Fault Refusal :=
  runCmd (negotiated inst (measure inst index signed nonce)) s

/-- R382: a session begins; each instance holds at most 4. -/
def keyExchange (inst slot exchange : Nat) (s : State) : State :=
  if slot ≠ 0 then spdmError inst 1 0 s
  else if 4 ≤ s.sec.sessions.countP (·.inst == inst) then spdmError inst 0x0A 0 s
  else
    let id := s.sec.nextSession
    let k := Config.exchangeKey exchange
    let (sg, s1) := signedPart exchange k s
    let sec := { s1.sec with sessions := s1.sec.sessions ++ [{ id := id, inst := inst }], nextSession := id + 1 }
    spdmReply inst 0x64 0 0 (leBytes 4 id ++ k ++ sg) { s1 with sec := sec }

/-- KEY_EXCHANGE (R382). -/
def execKeyExchange (inst : Nat) (slot : Nat) (exchange : Nat) (s : State) : Host.Outcome State Fault Refusal :=
  runCmd (negotiated inst (keyExchange inst slot exchange)) s

/-- The session of an instance. -/
def sessionAt (s : State) (inst id : Nat) : Option SpdmSession := s.sec.sessions.find? fun x => x.id == id && x.inst == inst

/-- R382: FINISH completes the establishment of a session. -/
def finish (inst session : Nat) (s : State) : State :=
  match sessionAt s inst session with
  | some x =>
    if x.established then spdmError inst 4 0 s
    else
      spdmReply inst 0x65 0 0 [] { s with sec := { s.sec with
        sessions := s.sec.sessions.map fun y => if y = x then { y with established := true } else y } }
  | none => spdmError inst 4 0 s

/-- FINISH (R382). -/
def execFinish (inst : Nat) (session : Nat) (s : State) : Host.Outcome State Fault Refusal := runCmd (negotiated inst (finish inst session)) s

/-- R382: END_SESSION ends an established session; the link keys it programmed stay. -/
def endSession (inst session : Nat) (s : State) : State :=
  match sessionAt s inst session with
  | some x =>
    if x.established then
      spdmReply inst 0x6C 0 0 [] { s with sec := { s.sec with sessions := s.sec.sessions.filter fun y => !(y.id == session && y.inst == inst) } }
    else spdmError inst 4 0 s
  | none => spdmError inst 4 0 s

/-- END_SESSION (R382). -/
def execEndSession (inst : Nat) (session : Nat) (s : State) : Host.Outcome State Fault Refusal :=
  runCmd (negotiated inst (endSession inst session)) s

/-- SPDM_UNSUPPORTED_REQUEST (R382): ERROR UnsupportedRequest. -/
def execSpdmUnsupportedRequest (inst : Nat) (code : Nat) (s : State) : Host.Outcome State Fault Refusal :=
  runCmd (fun s => if spdmUp s inst then spdmError inst 7 code s else s) s

end Sys2Proof.Machine
end

