-- ==== Sys2Proof/Machine/Sideband.lean ====
section
/-! DEFINITION. SMBus and MCTP control (R406, R407), and JTAG (R408, R409). -/

namespace Sys2Proof.Machine
open Sys2Proof

/-! ## MCTP control messages: answered by hardware, without Spindle (R407). A response is its completion code and data. -/

/-- A control message is answered when the SMBus interface responds. -/
def mctpAnswer (f : State → State) (s : State) : State := if smbusUp s then f s else s

/-- A control response. -/
def mctpReply (code : Nat) (bs : List Byte) (s : State) : State := s.emit (.mctp (leBytes 1 code ++ bs))

/-- R406: the bus owner assigns the endpoint ID; 0 and 0xFF are no endpoint's (DSP0236, PRESUMED). -/
def setEid (eid : Nat) (s : State) : State :=
  if eid = 0 ∨ 255 ≤ eid then mctpReply 2 [] s
  else mctpReply 0 (leBytes 1 0 ++ leBytes 1 eid ++ leBytes 1 0) { s with hst := { s.hst with eid := eid } }

/-- SET_ENDPOINT_ID (R407). -/
def execSetEndpointId (eid : Nat) (s : State) : Host.Outcome State Fault Refusal := runCmd (mctpAnswer (setEid eid)) s

/-- GET_ENDPOINT_ID (R407): the ID, a simple endpoint with a dynamic ID, no medium-specific information (DSP0236, PRESUMED). -/
def execGetEndpointId (s : State) : Host.Outcome State Fault Refusal :=
  runCmd (mctpAnswer fun s => mctpReply 0 (leBytes 1 s.hst.eid ++ leBytes 2 0) s) s

/-- GET_ENDPOINT_UUID (R407). -/
def execGetEndpointUuid (s : State) : Host.Outcome State Fault Refusal :=
  runCmd (mctpAnswer fun s => mctpReply 0 (padTo 16 (Config.uuid s.fuses.serial)) s) s

/-- GET_MCTP_VERSION_SUPPORT (R407): one version entry; the spec does not say which version: a free value. -/
def versionSupport (s : State) : State :=
  let (x, s1) := freshNat s
  mctpReply 0 (leBytes 1 1 ++ leBytes 4 x) s1

/-- GET_MCTP_VERSION_SUPPORT (R407). -/
def execGetMctpVersionSupport (s : State) : Host.Outcome State Fault Refusal := runCmd (mctpAnswer versionSupport) s

/-- GET_MESSAGE_TYPE_SUPPORT (R407): 0x00, 0x05, 0x06 and 0x7E. -/
def execGetMessageTypeSupport (s : State) : Host.Outcome State Fault Refusal :=
  runCmd (mctpAnswer (mctpReply 0 [4, 0x00, 0x05, 0x06, 0x7E])) s

/-- R406: the UDID is the device's: Vendor ID, Device ID and the device-specific field, in their places in an SMBus UDID. -/
def udidOurs (s : State) (udid : Nat) : Bool :=
  bits udid 111 96 == 0x1EF5 && bits udid 95 80 == 0x6424 && bits udid 31 0 == leAt (Config.sm3 s.fuses.serial) 0 4

/-- R406: SMBus ARP assigns an address to the device whose UDID is named. -/
def arp (udid addr : Nat) (s : State) : State :=
  if smbusUp s && udidOurs s udid then { s with hst := { s.hst with smbAddr := addr % 128 } } else s

/-- SMBUS_ARP (R406). -/
def execSmbusArp (udid : Nat) (addr : Nat) (s : State) : Host.Outcome State Fault Refusal := runCmd (arp udid addr) s

/-! ## JTAG: the TAP works while RESET_N is asserted (R409) -/

/-- An instruction of the TAP; while RESET_N is deasserted it is held in Test-Logic-Reset, and nothing is driven. -/
def tap (ir : BitVec 4) (f : State → State) (s : State) : State :=
  if s.clk.resetN then s else f { s with hst := { s.hst with tapIr := ir } }

/-- R408: IDCODE. -/
def idcode (s : State) : Nat := (s.fuses.stepping % 16) * 2 ^ 28 + 0x6424 * 2 ^ 12 + 0x3A5 * 2 + 1

/-- JTAG_EXTEST (R408): the pins are driven from the boundary register, and the pins' levels captured leave at TDO. -/
def execJtagExtest (pins : List Bool) (s : State) : Host.Outcome State Fault Refusal :=
  runCmd (tap 0 fun s => State.emit (s.emit (.pins s.hst.boundary)) (.tdo pins)) s

/-- JTAG_SAMPLE_PRELOAD (R408): the pins' levels captured leave at TDO, and the boundary register is loaded. -/
def execJtagSamplePreload (pins : List Bool) (preload : List Bool) (s : State) : Host.Outcome State Fault Refusal :=
  runCmd (tap 1 fun s => State.emit { s with hst := { s.hst with boundary := preload } } (.tdo pins)) s

/-- JTAG_IDCODE (R408). -/
def execJtagIdcode (s : State) : Host.Outcome State Fault Refusal :=
  runCmd (tap 2 fun s => s.emit (.tdo ((List.range 32).map (bitOf (idcode s))))) s

/-- JTAG_BYPASS (R408): every opcode but EXTEST, SAMPLE/PRELOAD and IDCODE selects the bypass register, which captures 0. -/
def execJtagBypass (opcode : BitVec 4) (s : State) : Host.Outcome State Fault Refusal :=
  runCmd (fun s => if opcode.toNat < 3 then s else tap opcode (fun s => s.emit (.tdo [false])) s) s

end Sys2Proof.Machine
end

