-- ==== Sys2Proof/Machine/Dispatch.lean ====
section
/-! DEFINITION. The dispatch of the block's commands: one arm per constructor, each one direct call of its meaning. -/

namespace Sys2Proof.Machine

def exec (i : Instr) (s : State) : Host.Outcome State Fault Refusal :=
  match i with
  | .identify area => Sys2Proof.Machine.execIdentify area s
  | .getStatus area => Sys2Proof.Machine.execGetStatus area s
  | .cfgBegin area => Sys2Proof.Machine.execCfgBegin area s
  | .cfgSet area => Sys2Proof.Machine.execCfgSet area s
  | .cfgGet area => Sys2Proof.Machine.execCfgGet area s
  | .cfgCommit area => Sys2Proof.Machine.execCfgCommit area s
  | .cfgRollback area => Sys2Proof.Machine.execCfgRollback area s
  | .portStatus area => Sys2Proof.Machine.execPortStatus area s
  | .portMaint area => Sys2Proof.Machine.execPortMaint area s
  | .portCalibrate area => Sys2Proof.Machine.execPortCalibrate area s
  | .portReset area => Sys2Proof.Machine.execPortReset area s
  | .partStatus area => Sys2Proof.Machine.execPartStatus area s
  | .poolStatus area => Sys2Proof.Machine.execPoolStatus area s
  | .discardRange area => Sys2Proof.Machine.execDiscardRange area s
  | .poolErase area => Sys2Proof.Machine.execPoolErase area s
  | .pageCopy area => Sys2Proof.Machine.execPageCopy area s
  | .cacheDisable area => Sys2Proof.Machine.execCacheDisable area s
  | .cacheEnable area => Sys2Proof.Machine.execCacheEnable area s
  | .cacheFlush area => Sys2Proof.Machine.execCacheFlush area s
  | .persistFlush area => Sys2Proof.Machine.execPersistFlush area s
  | .cacheStatus area => Sys2Proof.Machine.execCacheStatus area s
  | .agentStatus area => Sys2Proof.Machine.execAgentStatus area s
  | .agentDisown area => Sys2Proof.Machine.execAgentDisown area s
  | .scrubRange area => Sys2Proof.Machine.execScrubRange area s
  | .scrubStatus area => Sys2Proof.Machine.execScrubStatus area s
  | .retire area => Sys2Proof.Machine.execRetire area s
  | .logRead area => Sys2Proof.Machine.execLogRead area s
  | .ctrProgram area => Sys2Proof.Machine.execCtrProgram area s
  | .ctrWrite area => Sys2Proof.Machine.execCtrWrite area s
  | .ctrFreeze area => Sys2Proof.Machine.execCtrFreeze area s
  | .ctrRead area => Sys2Proof.Machine.execCtrRead area s
  | .traceControl area => Sys2Proof.Machine.execTraceControl area s
  | .slotRead area => Sys2Proof.Machine.execSlotRead area s
  | .histRead area => Sys2Proof.Machine.execHistRead area s
  | .clkGate area => Sys2Proof.Machine.execClkGate area s
  | .clkStatus area => Sys2Proof.Machine.execClkStatus area s
  | .selftest area => Sys2Proof.Machine.execSelftest area s
  | .ledgerRead area => Sys2Proof.Machine.execLedgerRead area s
  | .calendarSet area => Sys2Proof.Machine.execCalendarSet area s
  | .fwStage area => Sys2Proof.Machine.execFwStage area s
  | .fwActivate area => Sys2Proof.Machine.execFwActivate area s
  | .fwActivateLive area => Sys2Proof.Machine.execFwActivateLive area s
  | .domainForm area => Sys2Proof.Machine.execDomainForm area s
  | .domainStatus area => Sys2Proof.Machine.execDomainStatus area s
  | .getEventRecords port payload => Sys2Proof.Machine.execGetEventRecords port payload s
  | .clearEventRecords port payload => Sys2Proof.Machine.execClearEventRecords port payload s
  | .getEventInterruptPolicy port payload => Sys2Proof.Machine.execGetEventInterruptPolicy port payload s
  | .setEventInterruptPolicy port payload => Sys2Proof.Machine.execSetEventInterruptPolicy port payload s
  | .getFwInfo port payload => Sys2Proof.Machine.execGetFwInfo port payload s
  | .getTimestamp port payload => Sys2Proof.Machine.execGetTimestamp port payload s
  | .setTimestamp port payload => Sys2Proof.Machine.execSetTimestamp port payload s
  | .getSupportedLogs port payload => Sys2Proof.Machine.execGetSupportedLogs port payload s
  | .getLog port payload => Sys2Proof.Machine.execGetLog port payload s
  | .identifyMemoryDevice port payload => Sys2Proof.Machine.execIdentifyMemoryDevice port payload s
  | .getPartitionInfo port payload => Sys2Proof.Machine.execGetPartitionInfo port payload s
  | .getHealthInfo port payload => Sys2Proof.Machine.execGetHealthInfo port payload s
  | .cxlUnsupportedOpcode port opcode payload => Sys2Proof.Machine.execCxlUnsupportedOpcode port opcode payload s
  | .getVersion inst => Sys2Proof.Machine.execGetVersion inst s
  | .getCapabilities inst => Sys2Proof.Machine.execGetCapabilities inst s
  | .negotiateAlgorithms inst offersSm => Sys2Proof.Machine.execNegotiateAlgorithms inst offersSm s
  | .getDigests inst => Sys2Proof.Machine.execGetDigests inst s
  | .getCertificate inst slot offset length => Sys2Proof.Machine.execGetCertificate inst slot offset length s
  | .challenge inst slot nonce => Sys2Proof.Machine.execChallenge inst slot nonce s
  | .getMeasurements inst index signed nonce => Sys2Proof.Machine.execGetMeasurements inst index signed nonce s
  | .keyExchange inst slot exchange => Sys2Proof.Machine.execKeyExchange inst slot exchange s
  | .finish inst session => Sys2Proof.Machine.execFinish inst session s
  | .endSession inst session => Sys2Proof.Machine.execEndSession inst session s
  | .spdmUnsupportedRequest inst code => Sys2Proof.Machine.execSpdmUnsupportedRequest inst code s
  | .keyProg session port receive phase key iv => Sys2Proof.Machine.execKeyProg session port receive phase key iv s
  | .keyGo session port receive phase => Sys2Proof.Machine.execKeyGo session port receive phase s
  | .keyQuery session port => Sys2Proof.Machine.execKeyQuery session port s
  | .keyErase session port => Sys2Proof.Machine.execKeyErase session port s
  | .setEndpointId eid => Sys2Proof.Machine.execSetEndpointId eid s
  | .getEndpointId => Sys2Proof.Machine.execGetEndpointId s
  | .getEndpointUuid => Sys2Proof.Machine.execGetEndpointUuid s
  | .getMctpVersionSupport => Sys2Proof.Machine.execGetMctpVersionSupport s
  | .getMessageTypeSupport => Sys2Proof.Machine.execGetMessageTypeSupport s
  | .doeAbort => Sys2Proof.Machine.execDoeAbort s
  | .mbxDoneClear => Sys2Proof.Machine.execMbxDoneClear s
  | .nqDataRead wide => Sys2Proof.Machine.execNqDataRead wide s
  | .nqLostRead => Sys2Proof.Machine.execNqLostRead s
  | .traceRead wide => Sys2Proof.Machine.execTraceRead wide s
  | .errorLogWindowRead offset width ue => Sys2Proof.Machine.execErrorLogWindowRead offset width ue s
  | .spindleRestart value => Sys2Proof.Machine.execSpindleRestart value s
  | .wmCrossedClear wm => Sys2Proof.Machine.execWmCrossedClear wm s
  | .msixUnmask vector => Sys2Proof.Machine.execMsixUnmask vector s
  | .pciePowerStateChange d3 => Sys2Proof.Machine.execPciePowerStateChange d3 s
  | .registerWrite offset width value => Sys2Proof.Machine.execRegisterWrite offset width value s
  | .pwrgoodAssert => Sys2Proof.Machine.execPwrgoodAssert s
  | .pwrgoodDeassert => Sys2Proof.Machine.execPwrgoodDeassert s
  | .resetNAssert => Sys2Proof.Machine.execResetNAssert s
  | .resetNDeassert straps => Sys2Proof.Machine.execResetNDeassert straps s
  | .perstNAssert => Sys2Proof.Machine.execPerstNAssert s
  | .perstNDeassert => Sys2Proof.Machine.execPerstNDeassert s
  | .refclkGap => Sys2Proof.Machine.execRefclkGap s
  | .oscillatorQualified => Sys2Proof.Machine.execOscillatorQualified s
  | .monitorWindowEnd good => Sys2Proof.Machine.execMonitorWindowEnd good s
  | .fallbackCheckWindow good => Sys2Proof.Machine.execFallbackCheckWindow good s
  | .pllLock pll => Sys2Proof.Machine.execPllLock pll s
  | .pllLossOfLock pll => Sys2Proof.Machine.execPllLossOfLock pll s
  | .clockSwitch domain => Sys2Proof.Machine.execClockSwitch domain s
  | .switchForced domain => Sys2Proof.Machine.execSwitchForced domain s
  | .gateStop level index sub => Sys2Proof.Machine.execGateStop level index sub s
  | .gateWake level index sub => Sys2Proof.Machine.execGateWake level index sub s
  | .pllsLocked => Sys2Proof.Machine.execPllsLocked s
  | .pcieConfigurationReady => Sys2Proof.Machine.execPcieConfigurationReady s
  | .checkerSelftestDone failed => Sys2Proof.Machine.execCheckerSelftestDone failed s
  | .bootSlotVerify => Sys2Proof.Machine.execBootSlotVerify s
  | .ledgerMount => Sys2Proof.Machine.execLedgerMount s
  | .hbmTrained fails => Sys2Proof.Machine.execHbmTrained fails s
  | .metadataInitialised => Sys2Proof.Machine.execMetadataInitialised s
  | .firmwareReady => Sys2Proof.Machine.execFirmwareReady s
  | .memoryPortSettle expired => Sys2Proof.Machine.execMemoryPortSettle expired s
  | .poolRebuild failed => Sys2Proof.Machine.execPoolRebuild failed s
  | .homeReadyRelease => Sys2Proof.Machine.execHomeReadyRelease s
  | .junctionTempRead temps => Sys2Proof.Machine.execJunctionTempRead temps s
  | .thermalRelease => Sys2Proof.Machine.execThermalRelease s
  | .jtagExtest pins => Sys2Proof.Machine.execJtagExtest pins s
  | .jtagSamplePreload pins preload => Sys2Proof.Machine.execJtagSamplePreload pins preload s
  | .jtagIdcode => Sys2Proof.Machine.execJtagIdcode s
  | .jtagBypass opcode => Sys2Proof.Machine.execJtagBypass opcode s
  | .form frame => Sys2Proof.Machine.execForm frame s
  | .formTimeout => Sys2Proof.Machine.execFormTimeout s
  | .formDone frame => Sys2Proof.Machine.execFormDone frame s
  | .timeSync frame => Sys2Proof.Machine.execTimeSync frame s
  | .timeSyncSend => Sys2Proof.Machine.execTimeSyncSend s
  | .stateFrame frame => Sys2Proof.Machine.execStateFrame frame s
  | .stateSend => Sys2Proof.Machine.execStateSend s
  | .faultFrame frame => Sys2Proof.Machine.execFaultFrame frame s
  | .ringDown => Sys2Proof.Machine.execRingDown s
  | .domainTimeInvalid => Sys2Proof.Machine.execDomainTimeInvalid s
  | .relayCmd frame => Sys2Proof.Machine.execRelayCmd frame s
  | .relayRsp frame => Sys2Proof.Machine.execRelayRsp frame s
  | .relayTimeout => Sys2Proof.Machine.execRelayTimeout s
  | .relayNote frame => Sys2Proof.Machine.execRelayNote frame s
  | .commitPrepare frame => Sys2Proof.Machine.execCommitPrepare frame s
  | .prepareFragmentTimeout => Sys2Proof.Machine.execPrepareFragmentTimeout s
  | .commitVote frame => Sys2Proof.Machine.execCommitVote frame s
  | .voteTimeout => Sys2Proof.Machine.execVoteTimeout s
  | .commitDecide frame => Sys2Proof.Machine.execCommitDecide frame s
  | .decideRepeat => Sys2Proof.Machine.execDecideRepeat s
  | .commitAck frame => Sys2Proof.Machine.execCommitAck frame s
  | .ackTimeout => Sys2Proof.Machine.execAckTimeout s
  | .commitWindow => Sys2Proof.Machine.execCommitWindow s
  | .drainDone => Sys2Proof.Machine.execDrainDone s
  | .drainTimeout => Sys2Proof.Machine.execDrainTimeout s
  | .followUpDone => Sys2Proof.Machine.execFollowUpDone s
  | .txnIdleTimeout => Sys2Proof.Machine.execTxnIdleTimeout s
  | .commandLimitExpiry via => Sys2Proof.Machine.execCommandLimitExpiry via s
  | .detectPoll port found => Sys2Proof.Machine.execDetectPoll port found s
  | .tsDisc port lane ts => Sys2Proof.Machine.execTsDisc port lane ts s
  | .tsCfg port lane ts => Sys2Proof.Machine.execTsCfg port lane ts s
  | .tsEq port lane ts => Sys2Proof.Machine.execTsEq port lane ts s
  | .tsReady port lane ts => Sys2Proof.Machine.execTsReady port lane ts s
  | .tsRetrain port lane ts => Sys2Proof.Machine.execTsRetrain port lane ts s
  | .discoveryTimeout port => Sys2Proof.Machine.execDiscoveryTimeout port s
  | .configTimeout port => Sys2Proof.Machine.execConfigTimeout port s
  | .eqTimeout port => Sys2Proof.Machine.execEqTimeout port s
  | .verifyPass port => Sys2Proof.Machine.execVerifyPass port s
  | .verifyTimeout port => Sys2Proof.Machine.execVerifyTimeout port s
  | .retrainTimeout port => Sys2Proof.Machine.execRetrainTimeout port s
  | .lossOfSignal port => Sys2Proof.Machine.execLossOfSignal port s
  | .flitReceived port bytes => Sys2Proof.Machine.execFlitReceived port bytes s
  | .ackNak port nak seq => Sys2Proof.Machine.execAckNak port nak seq s
  | .ackTimer port => Sys2Proof.Machine.execAckTimer port s
  | .replayTimeout port => Sys2Proof.Machine.execReplayTimeout port s
  | .creditInit port slot => Sys2Proof.Machine.execCreditInit port slot s
  | .creditReturn port slot => Sys2Proof.Machine.execCreditReturn port slot s
  | .creditReturnTimer port => Sys2Proof.Machine.execCreditReturnTimer port s
  | .creditAuditDue port => Sys2Proof.Machine.execCreditAuditDue port s
  | .creditAudit port slot => Sys2Proof.Machine.execCreditAudit port slot s
  | .bindReq port slot => Sys2Proof.Machine.execBindReq port slot s
  | .modDesc port slot => Sys2Proof.Machine.execModDesc port slot s
  | .mac port slot => Sys2Proof.Machine.execMac port slot s
  | .calibrationDone port => Sys2Proof.Machine.execCalibrationDone port s
  | .maintEntry port => Sys2Proof.Machine.execMaintEntry port s
  | .epochAdvance target => Sys2Proof.Machine.execEpochAdvance target s
  | .rdShared msg => Sys2Proof.Machine.execRdShared msg s
  | .rdOwn msg => Sys2Proof.Machine.execRdOwn msg s
  | .rdOnce msg => Sys2Proof.Machine.execRdOnce msg s
  | .upgrade msg => Sys2Proof.Machine.execUpgrade msg s
  | .flushLine msg => Sys2Proof.Machine.execFlushLine msg s
  | .wrFull msg => Sys2Proof.Machine.execWrFull msg s
  | .wrPart msg => Sys2Proof.Machine.execWrPart msg s
  | .atomic msg => Sys2Proof.Machine.execAtomic msg s
  | .wbDirty msg => Sys2Proof.Machine.execWbDirty msg s
  | .evictClean msg => Sys2Proof.Machine.execEvictClean msg s
  | .rspI msg => Sys2Proof.Machine.execRspI msg s
  | .rspS msg => Sys2Proof.Machine.execRspS msg s
  | .rspWbPending msg => Sys2Proof.Machine.execRspWbPending msg s
  | .rspIData msg => Sys2Proof.Machine.execRspIData msg s
  | .rspSData msg => Sys2Proof.Machine.execRspSData msg s
  | .cxlMemRd port m => Sys2Proof.Machine.execCxlMemRd port m s
  | .cxlMemRdData port m => Sys2Proof.Machine.execCxlMemRdData port m s
  | .cxlMemSpecRd port m => Sys2Proof.Machine.execCxlMemSpecRd port m s
  | .cxlMemInv port m => Sys2Proof.Machine.execCxlMemInv port m s
  | .cxlMemClnEvct port m => Sys2Proof.Machine.execCxlMemClnEvct port m s
  | .cxlMemWr port m => Sys2Proof.Machine.execCxlMemWr port m s
  | .cxlMemWrPtl port m => Sys2Proof.Machine.execCxlMemWrPtl port m s
  | .cxlBiConflict port m => Sys2Proof.Machine.execCxlBiConflict port m s
  | .cxlBiRsp port m => Sys2Proof.Machine.execCxlBiRsp port m s
  | .cxlMemEnable port enable => Sys2Proof.Machine.execCxlMemEnable port enable s
  | .hdmDecoderCommit port decoder base size ways skip => Sys2Proof.Machine.execHdmDecoderCommit port decoder base size ways skip s
  | .expanderEnumeration port desc => Sys2Proof.Machine.execExpanderEnumeration port desc s
  | .expanderEventPoll port records => Sys2Proof.Machine.execExpanderEventPoll port records s
  | .memRdData port m => Sys2Proof.Machine.execMemRdData port m s
  | .memWrAck port tag ack => Sys2Proof.Machine.execMemWrAck port tag ack s
  | .hbmReturn slice id met => Sys2Proof.Machine.execHbmReturn slice id met s
  | .storeSetReturn slice set met => Sys2Proof.Machine.execStoreSetReturn slice set met s
  | .tagSetReturn slice ls errs => Sys2Proof.Machine.execTagSetReturn slice ls errs s
  | .allocate => Sys2Proof.Machine.execAllocate s
  | .allocatorAnswer slice => Sys2Proof.Machine.execAllocatorAnswer slice s
  | .waitingRequestOpen slice line => Sys2Proof.Machine.execWaitingRequestOpen slice line s
  | .cmpDeparture port => Sys2Proof.Machine.execCmpDeparture port s
  | .snoopTimeout slice laddr agent => Sys2Proof.Machine.execSnoopTimeout slice laddr agent s
  | .recoveryRecall slice set laddr => Sys2Proof.Machine.execRecoveryRecall slice set laddr s
  | .evictionCopyRead slice frame => Sys2Proof.Machine.execEvictionCopyRead slice frame s
  | .memoryPortSchedule port => Sys2Proof.Machine.execMemoryPortSchedule port s
  | .memPortTimeout port => Sys2Proof.Machine.execMemPortTimeout port s
  | .tripleRebuild fx copy => Sys2Proof.Machine.execTripleRebuild fx copy s
  | .extentRetirementCopy fx copy => Sys2Proof.Machine.execExtentRetirementCopy fx copy s
  | .bankRelocation => Sys2Proof.Machine.execBankRelocation s
  | .drainWalkerStep slice => Sys2Proof.Machine.execDrainWalkerStep slice s
  | .disableSweepStep slice => Sys2Proof.Machine.execDisableSweepStep slice s
  | .disownSweepStep pass => Sys2Proof.Machine.execDisownSweepStep pass s
  | .persistSweepStep slice => Sys2Proof.Machine.execPersistSweepStep slice s
  | .discardStep => Sys2Proof.Machine.execDiscardStep s
  | .pageCopyStep => Sys2Proof.Machine.execPageCopyStep s
  | .audit who => Sys2Proof.Machine.execAudit who s
  | .censusStep who => Sys2Proof.Machine.execCensusStep who s
  | .tmrSweep upsets => Sys2Proof.Machine.execTmrSweep upsets s
  | .patrolRead target err => Sys2Proof.Machine.execPatrolRead target err s
  | .scrubStep err retagged => Sys2Proof.Machine.execScrubStep err retagged s
  | .hbmRefresh stack bank => Sys2Proof.Machine.execHbmRefresh stack bank s
  | .rfmpb stack bank => Sys2Proof.Machine.execRfmpb stack bank s
  | .hbmTempRead stack temp => Sys2Proof.Machine.execHbmTempRead stack temp s
  | .hbmInterfaceCalibration stack inMargin => Sys2Proof.Machine.execHbmInterfaceCalibration stack inMargin s
  | .hbmRetrain stack => Sys2Proof.Machine.execHbmRetrain stack s
  | .fetchTrap page src => Sys2Proof.Machine.execFetchTrap page src s
  | .dataLoadUe addr => Sys2Proof.Machine.execDataLoadUe addr s
  | .dmaHalt channel addr => Sys2Proof.Machine.execDmaHalt channel addr s
  | .spindleResume => Sys2Proof.Machine.execSpindleResume s
  | .notificationPush => Sys2Proof.Machine.execNotificationPush s
  | .ledgerCheckpoint => Sys2Proof.Machine.execLedgerCheckpoint s
  | .stalagmiteFlush id index => Sys2Proof.Machine.execStalagmiteFlush id index s
  | .calendarLedgerWrite => Sys2Proof.Machine.execCalendarLedgerWrite s
  | .powerOnTimeTick => Sys2Proof.Machine.execPowerOnTimeTick s
  | .agingSample ratios => Sys2Proof.Machine.execAgingSample ratios s
  | .traceStallTimeout => Sys2Proof.Machine.execTraceStallTimeout s
  | .obsSnapshot => Sys2Proof.Machine.execObsSnapshot s
  | .badOpcode opcode area => Sys2Proof.Machine.execBadOpcode opcode area s
  | .ringIgnored => Sys2Proof.Machine.execRingIgnored s
  | .hbmWriteComplete slice set => Sys2Proof.Machine.execHbmWriteComplete slice set s
  | .cxlCreditReturn port ndr drs biSnp => Sys2Proof.Machine.execCxlCreditReturn port ndr drs biSnp s
  | .cxlReset port => Sys2Proof.Machine.execCxlReset port s
  | .ideKm port session stream receive key => Sys2Proof.Machine.execIdeKm port session stream receive key s
  | .obsWord => Sys2Proof.Machine.execObsWord s
  | .homeReadyLineChange level => Sys2Proof.Machine.execHomeReadyLineChange level s
  | .smbusArp udid addr => Sys2Proof.Machine.execSmbusArp udid addr s

end Sys2Proof.Machine
end

