-- ==== Sys2Proof/Machine/Registers.lean ====
section
/-! DEFINITION. What reads of the function return: the BAR0 registers (R7, R9, R11, R401, Tables HOST-4 to HOST-9), BAR2 and BAR4
(R400, R405), and the identifiers of configuration space (R398). -/

namespace Sys2Proof.Machine
open Sys2Proof

/-! ## Fields of BAR0 (Tables HOST-5 to HOST-9); a reserved bit reads as zero (R9) -/

/-- The bits of a list of flags, from bit 0. -/
def flagBits (l : List Bool) : Nat := (l.zipIdx.map fun x => b2n x.1 * 2 ^ x.2).sum

/-- Table HOST-5: DEV_ID. -/
def devId (s : State) : Nat := 0x6424 + b2n s.fuses.is144 * 2 ^ 16 + (s.fuses.stepping % 256) * 2 ^ 24

/-- Table HOST-5: GSTATUS. -/
def gstatus (s : State) : Nat :=
  s.clk.step % 32 + flagBits [s.clk.failedStep.isSome, s.clk.strapInvalid, s.clk.selftestFail] * 2 ^ 5 + s.clk.hbmFail.toNat * 2 ^ 8 +
  flagBits (s.hbm.stk.toList.map (·.retrainPending)) * 2 ^ 12 +
  flagBits [s.clk.ledgerFail, s.clk.fwReady, s.clk.homeOwn, s.clk.homeLine, s.dom.formed && !s.dom.down, isPrimary s, ringEn s, s.cons.contained] * 2 ^ 16 +
  (s.clk.failedStep.getD 0 % 32) * 2 ^ 24

/-- Table HOST-5: MGMT_STATE.STATE. -/
def mgmtNumber : MgmtState → Nat
  | .notReady => 0 | .running => 1 | .halted => 2 | .liveActivation => 3 | .recovery => 4 | .restarting => 5

/-- Table HOST-5: MGMT_STATE. -/
def mgmtWord (s : State) : Nat :=
  mgmtNumber s.mgmt.state + b2n s.mgmt.fault * 2 ^ 4 + (s.sec.active % 2) * 2 ^ 5 + (s.mgmt.haltCause % 256) * 2 ^ 8

/-- Table HOST-6: MBX_STATUS. -/
def mbxStatus (s : State) : Nat :=
  b2n (s.mgmt.pri.state == .done) + b2n (s.mgmt.pri.state == .taken) * 2 + (s.mgmt.pri.lastStatus % 256) * 2 ^ 8 +
  (s.mgmt.pri.ringIgnored % 256) * 2 ^ 16

/-- R281, Table HOST-7: NQ_PKTS: the words visible that end a packet. -/
def nqPackets (s : State) : Nat := (nqVisible s).countP fun w => w.getLsbD 62

/-- Table HOST-8: FAULT_STATUS. -/
def faultStatus (s : State) : Nat :=
  flagBits [s.cons.contained, s.cons.contained && s.cons.salvage, s.mgmt.fault, faultN s] + (s.cons.later % 256) * 2 ^ 8 +
  (s.cons.first % 2 ^ 32) * 2 ^ 32

/-- Table HOST-8: WM_SUMMARY. -/
def wmSummaryWord (s : State) : Nat := flagBits (s.mgmt.wms.toList.map (·.crossed))

/-- Table HOST-8: WM_STATE[w]. -/
def wmState (s : State) (w : Fin 49) : Nat := b2n s.mgmt.wms[w].crossed + b2n (wmLevel s w != 0) * 2

/-- Table HOST-9: TRACE_STATE. -/
def traceState (s : State) : Nat :=
  b2n s.obs.running + (cfgGet s keyObsStream 0 % 4) * 2 + flagBits ((List.range 4).map fun f => cfgGet s keyFilterEn f == 1) * 2 ^ 8

/-- Table HOST-9: TRACE_WORDS: the words that reads of TRACE_READ would pop now. -/
def traceVisible (s : State) : Nat :=
  s.obs.readLeft.length + ((s.obs.trace.take (s.obs.trace.length - s.obs.traceHidden)).map List.length).sum

/-- Table HOST-10: the MSI-X pending bits. -/
def pendingBits (s : State) : Nat := flagBits (s.hst.vectors.toList.map (·.pending))

/-- R403: a dword of the MSI-X table: bit 0 of the last one of an entry is its mask bit. -/
def msixDword (s : State) (off : Nat) : Nat :=
  let v := ofLe ((List.range 4).map fun i => s.hst.table.read (off + i))
  if off % 16 = 12 then v / 2 * 2 + b2n s.hst.vectors[(⟨off / 16 % 32, Nat.mod_lt _ (by decide)⟩ : Fin 32)].masked else v

/-! ## Reads of BAR0 (R7, R11, R401) -/

/-- Half 0 or 1 of a 64-bit register. -/
def half64 (v i : Nat) : Nat := v / 2 ^ (32 * i) % 2 ^ 32

/-- Table HOST-4, offsets 0x4000 and up: faults and watermarks. -/
def faultDword (s : State) (off : Nat) : Nat :=
  if off < 0x4008 then half64 (faultStatus s) (off / 4 % 2)
  else if off < 0x4010 then half64 (wmSummaryWord s) (off / 4 % 2)
  else if h : 0x4100 ≤ off ∧ (off - 0x4100) / 16 < 49 then
    (if off % 16 = 0 then wmState s ⟨(off - 0x4100) / 16, h.2⟩
     else if off % 16 = 8 then s.mgmt.wms[(⟨(off - 0x4100) / 16, h.2⟩ : Fin 49)].peak % 2 ^ 23 else 0)
  else 0

/-- R7, R9, R401, Table HOST-4: what an aligned 32-bit read of BAR0 returns: the value of each readable field; a field that is write-only,
a reserved bit, an offset not listed, and a half of NQ_DATA or TRACE_READ read as zero. -/
def bar0Dword (s : State) (off : Nat) : Nat :=
  if off = 0 then devId s
  else if off = 0x08 ∨ off = 0x0C then half64 (gstatus s) (off / 4 % 2)
  else if off = 0x10 then mgmtWord s
  else if off = 0x104 then mbxStatus s
  else if 0x1000 ≤ off ∧ off < 0x2000 then ofLe ((List.range 4).map fun i => s.mgmt.pri.cmd.read (off - 0x1000 + i))
  else if 0x2000 ≤ off ∧ off < 0x3000 then leAt s.mgmt.pri.resp (off - 0x2000) 4
  else if off = 0x3008 then (nqVisible s).length
  else if off = 0x3010 then nqPackets s
  else if off = 0x3018 then s.mgmt.nqLost
  else if 0x4000 ≤ off ∧ off < 0x5000 then faultDword s off
  else if off = 0x5008 then traceState s
  else if off = 0x5010 then traceVisible s
  else if off = 0x5018 then min s.obs.lossPending (2 ^ 32 - 1)
  else if 0x8000 ≤ off ∧ off < 0x8200 then msixDword s (off - 0x8000)
  else if off = 0xC000 then pendingBits s
  else 0

/-- R7: a read of a read-clearing register clears it: NQ_LOST. -/
def readClears (off width : Nat) (s : State) : State :=
  if off ≤ 0x3018 ∧ 0x3018 < off + width then { s with mgmt := { s.mgmt with nqLost := 0 } } else s

/-- R11: a read of BAR0: an aligned one of 32 or 64 bits returns the registers it covers, each half of a 64-bit read sampled in turn, and
those of NQ_DATA and TRACE_READ pop; any other returns all zeros. -/
def registerRead (off width : Nat) (s : State) : State :=
  if !(hostUp s) || decide (65536 ≤ off) then s
  else if width = 8 ∧ off % 8 = 0 then
    (if off = 0x3000 then nqRead true s
     else if off = 0x5000 then traceRead true s
     else returnRead (bar0Dword s off + bar0Dword s (off + 4) * 2 ^ 32) (readClears off 8 s))
  else if width = 4 ∧ off % 4 = 0 then returnRead (bar0Dword s off) (readClears off 4 s)
  else returnRead 0 s

/-! ## Reads of BAR2 and BAR4 (R324, R400, R405) -/

/-- R400: the values that a read of BAR2 returns: aligned words in ascending order, one half of a word, or zeros. -/
def bar2Read (s : State) (off len : Nat) : List Nat :=
  if off % 8 = 0 ∧ len % 8 = 0 then (List.range (len / 8)).map fun i => bar2Word s (off + 8 * i)
  else if off % 4 = 0 ∧ len = 4 then [half64 (bar2Word s (off / 8 * 8)) (off / 4 % 2)]
  else [0]

/-- R335, R400: reads of n words of the trace window, in order. -/
def traceReads : Nat → State → State
  | 0, s => s
  | n + 1, s => traceReads n (traceRead true s)

/-- R400, R405: a read of BAR4: of the trace window, of the error-log window, or above them. -/
def bar4Read (off len : Nat) (ue : Bool) (s : State) : State :=
  if !(hostUp s) then s
  else if off < 0x400000 then (if off % 8 = 0 ∧ len % 8 = 0 then traceReads (len / 8) s else returnRead 0 s)
  else if off < 0x800000 then logWindowRead off len ue s
  else returnRead 0 s

/-! ## Configuration space (R398) -/

/-- Table HOST-1: the identifiers, at their places in a PCIe configuration header; any other offset is PCIe's. -/
def configDword (s : State) (off : Nat) : Option Nat :=
  if off = 0x00 then some (0x1EF5 + 0x6424 * 2 ^ 16)
  else if off = 0x08 then some (s.fuses.stepping % 256 + 0x058000 * 2 ^ 8)
  else if off = 0x2C then some (0x1EF5 + (if s.fuses.is144 then 0x0144 else 0x0096) * 2 ^ 16)
  else none

/-- Table HOST-2: the Device Serial Number. -/
def deviceSerial (s : State) : Nat := leAt (Config.sm3 s.fuses.serial) 0 8

end Sys2Proof.Machine
end

