-- ==== Sys2Proof/Machine/Package.lean ====
section
/-! DEFINITION. The package (R409 to R414, R424): which signal every ball carries, the order of the boundary cells, and the ordering
code. -/

namespace Sys2Proof.Machine
open Sys2Proof

/-! ## Ball names and quadrants (R410, R411) -/

/-- R410: the letters of row names; I, O, Q, R, S, X and Z are never used. -/
def rowLetters : List Char := ['A', 'B', 'C', 'D', 'E', 'F', 'G', 'H', 'J', 'K', 'L', 'M', 'N', 'P', 'T', 'U', 'V', 'W', 'Y']

/-- R410: the name of row r, 1 to 60. -/
def rowName (r : Nat) : List Char :=
  let l := fun n => rowLetters.getD n 'A'
  if r ≤ 19 then [l (r - 1)] else [l ((r - 20) / 19), l ((r - 20) % 19)]

/-- R411: the quadrant of a ball, and its local coordinates from the package edge. -/
def quadrant (r c : Nat) : Nat × Nat × Nat :=
  if r ≤ 30 then (if c ≤ 30 then (0, r, c) else (1, r, 61 - c)) else (if c ≤ 30 then (3, 61 - r, c) else (2, 61 - r, 61 - c))

/-! ## The placement template (R412 to R414) -/

/-- The rails of Table PKG-6. -/
inductive Rail
  | core | sram | serdes | serdesHigh | hbmVpp | hbm | hbmQ | io | alwaysOn | mram
  deriving DecidableEq, Repr

/-- The signals of Table PKG-3; a pair by its side, true for N. -/
inductive Signal
  | refclk (n : Bool) | coreSense (vss : Bool) | pwrgood | resetN | perstN | thermN | strap (i : Nat) | avsClk | avsMdata | avsSdata | faultN
  | ringTx (n : Bool) | ringRx (n : Bool) | homeReady | smbScl | smbSda | qspiClk | qspiCs | qspiIo (i : Nat)
  | obsClk (n : Bool) | obsData (i : Nat) (n : Bool) | trstN | tck | tms | tdi | tdo | thermda | thermdc
  deriving DecidableEq, Repr

/-- R412: what a ball carries. A lane is of a port or of PCIe (no port), transmitted or received, P or N. -/
inductive BallUse
  | vss
  | rail (r : Rail)
  | lane (port : Option Nat) (tx : Bool) (lane : Nat) (n : Bool)
  | signal (s : Signal)
  | rsvd
  deriving DecidableEq, Repr

/-- Table PKG-3: the sites of a quadrant, in order; those that follow are RSVD. -/
def sites : Nat → List BallUse
  | 0 => [.signal (.refclk false), .signal (.refclk true), .signal (.coreSense false), .signal (.coreSense true), .signal .pwrgood,
          .signal .resetN, .signal .perstN, .signal .thermN, .signal (.strap 0), .signal (.strap 1), .signal (.strap 2), .signal (.strap 3),
          .signal .avsClk, .signal .avsMdata, .signal .avsSdata, .signal .faultN]
  | 1 => [.signal (.ringTx false), .signal (.ringTx true), .signal (.ringRx false), .signal (.ringRx true), .signal .homeReady,
          .signal .smbScl, .signal .smbSda, .rsvd, .signal .qspiClk, .signal .qspiCs, .rsvd, .rsvd,
          .signal (.qspiIo 0), .signal (.qspiIo 1), .signal (.qspiIo 2), .signal (.qspiIo 3)]
  | 2 => [.signal (.obsClk false), .signal (.obsClk true), .signal (.obsData 0 false), .signal (.obsData 0 true), .signal (.obsData 1 false),
          .signal (.obsData 1 true), .signal (.obsData 2 false), .signal (.obsData 2 true), .signal (.obsData 3 false),
          .signal (.obsData 3 true), .signal .trstN, .rsvd, .signal .tck, .signal .tms, .signal .tdi, .signal .tdo]
  | _ => [.signal .thermda, .signal .thermdc]

/-- R413: a ball of a port: port 6q + m in columns of four; rows 2 and 4 transmit, 6 and 8 receive, each two lanes as P, N, P, N. -/
def portBall (q i j : Nat) : BallUse :=
  let t := (j - 5) % 4
  .lane (some (6 * q + (j - 5) / 4)) (decide (i ≤ 4)) ((if i = 2 ∨ i = 6 then 0 else 2) + t / 2) (t % 2 == 1)

/-- R413: a ball of PCIe: lanes 2q and 2q + 1. -/
def pcieBall (q i j : Nat) : BallUse := .lane none (i == 14) (2 * q + (j - 1) / 2) (j % 2 == 0)

/-- Table PKG-2: the function of a ball by its quadrant and local coordinates: the first row of the template whose ranges hold it. -/
def template (q i j : Nat) : BallUse :=
  let mixed := fun (r : Rail) => if (i + j) % 2 = 0 then BallUse.vss else .rail r
  if i ≤ 8 ∧ 5 ≤ j ∧ j ≤ 28 then (if i % 2 = 1 then .vss else portBall q i j)
  else if 13 ≤ i ∧ i ≤ 16 ∧ j ≤ 4 then (if i % 2 = 1 then .vss else pcieBall q i j)
  else if 17 ≤ i ∧ i ≤ 24 ∧ j ≤ 4 then (if i % 2 = 1 then .vss else (sites q).getD (4 * ((i - 18) / 2) + (j - 1)) .rsvd)
  else if 9 ≤ i ∧ i ≤ 12 then (if i % 2 = 1 then .vss else .rail (if i = 10 then .serdes else .serdesHigh))
  else if 13 ≤ i ∧ i ≤ 20 ∧ 9 ≤ j then mixed (if i ≤ 14 then .hbmVpp else if i ≤ 17 then .hbm else .hbmQ)
  else if 21 ≤ i ∧ 9 ≤ j then mixed (if j ≤ 14 then .sram else .core)
  else if 25 ≤ i ∧ j ≤ 8 then mixed (if j ≤ 4 then .io else if q % 2 = 0 then .alwaysOn else .mram)
  else .vss

/-- R410, R412: the function of the ball in row r and column c, each 1 to 60. -/
def ballUse (r c : Nat) : BallUse := let x := quadrant r c; template x.1 x.2.1 x.2.2

/-! ## The boundary register (R409) -/

/-- R409: the signals outside the boundary register: differential and high-speed pins, analogue sense pins, and the TAP's own. -/
def outsideScan : Signal → Bool
  | .refclk _ | .ringTx _ | .ringRx _ | .obsClk _ | .obsData _ _ | .coreSense _ | .thermda | .thermdc | .trstN | .tck | .tms | .tdi | .tdo => true
  | _ => false

/-- R409: the signals of the boundary register, from TDI, by ascending ball name. -/
def scanOrder : List Signal :=
  (List.range 60).flatMap fun r => (List.range 60).filterMap fun c =>
    match ballUse (r + 1) (c + 1) with
    | .signal x => if outsideScan x then none else some x
    | _ => none

/-- R409: the cells of the boundary register: an input, an output and an output-enable cell of each signal. -/
def scanLength : Nat := 3 * scanOrder.length

/-! ## Ordering and marking (R424) -/

/-- R424: the stepping letter and digit that STEPPING encodes. -/
def steppingName (v : Nat) : Char × Nat := (Char.ofNat (64 + v / 16 % 16), v % 16)

/-- R424: the ordering code: the variant, the stepping, and T for trays or E for engineering samples. -/
def orderingCode (s : State) (tray : Bool) : List Char :=
  let x := steppingName s.fuses.stepping
  ['P', 'N', 'H', '6', '4', '2', '4', '-'] ++ (if s.fuses.is144 then ['1', '4', '4'] else ['0', '9', '6']) ++
  ['-', x.1, Char.ofNat (48 + x.2), '-', if tray then 'T' else 'E']

end Sys2Proof.Machine
end

