-- ==== Sys2Proof/Safety.lean ====
section
/-! DEFINITION. The terms in which the claims about the block are stated: what a step's command decides of the state, the invariant of
every step, and when a command of a mailbox is taken. -/

namespace Sys2Proof.Machine
open Sys2Proof

/-! ## What a step decides -/

/-- The state but for the watermarks and the intake of events, which every step may move (R283 to R285, R425). -/
def State.view (s : State) : State :=
  { s with mgmt := { s.mgmt with wms := Vector.replicate 49 {}, intake := [], intakeLost := 0, nqLost := 0 } }

/-- The command answers a next state, and that state is u but for the watermarks and the intake. -/
def Becomes (c : Instr) (s u : State) : Prop := ∃ t, exec c s = .next t ∧ t.view = u.view

/-- R425: the command's step puts an event into the intake, when the intake has room as the step begins. -/
def Notes (c : Instr) (s : State) (e : Event) : Prop := ∃ t, exec c s = .next t ∧ (s.mgmt.intake.length < 256 → e ∈ t.mgmt.intake)

/-- What holds of every step whatever the command does: CONTAINED and what it latched stay, domain time and the monotonic counters do
not fall (R211, R269, R373), counters that saturate stay in range, and the queue is not the command's. -/
def kept (s u : State) : State := hold s (latch s u)

/-! ## The invariant of every step -/

/-- R373: a monotonic counter is listed once, and its value is not below what the ledger holds of it. -/
def StalOk (l : List Stal) : Prop := l.Pairwise (fun a b => sameStal a b = false) ∧ ∀ x ∈ l, x.written ≤ x.value

/-- Counters that saturate are in range (R264, R273, R280, R347), and the monotonic counters are well kept (R373). -/
def Sound (s : State) : Prop :=
  s.mgmt.pri.ringIgnored ≤ 255 ∧ s.mgmt.nqLost ≤ 2 ^ 32 - 1 ∧ s.cons.later ≤ 255 ∧ s.clk.forced ≤ 65535 ∧ StalOk s.led.stal

/-- R352: the commands with which a reset of the core can begin, or one can be released. -/
def resets : Instr → Bool
  | .pwrgoodAssert | .pwrgoodDeassert | .resetNAssert | .resetNDeassert .. | .junctionTempRead .. | .thermalRelease | .clockSwitch ..
  | .switchForced .. | .refclkGap | .oscillatorQualified | .monitorWindowEnd .. | .pllLossOfLock .. => true
  | _ => false

/-! ## The mailboxes -/

/-- Tables CMD-3 to CMD-10 number the bytes of a command area, whose payload begins at byte 16: bytes lo to hi as a number. -/
def fld (payload : List Byte) (lo hi : Nat) : Nat := leAt payload (lo - 16) (hi + 1 - lo)

/-- A mask of ports: bit k stands for port k, and no other bit is set. -/
def MaskOf (m : Nat) (f : Fin 24 → Bool) : Prop := (∀ k : Fin 24, bitOf m k = f k) ∧ m < 2 ^ 24

/-- R271, R273: a command area is well made: its reserved fields are zero and its lengths agree. -/
def Made (a : CmdArea) : Prop := a.resv = 0 ∧ a.payloadLen = a.payload.length ∧ a.payload.length ≤ 4080 ∧ a.cookie < 2 ^ 32

/-- R273, R276, R215: the command reaches Spindle: by the host mailbox of the primary, which is idle, for the device itself; by the
secondary mailbox, which is idle and accepts the opcode; or relayed. -/
def Reaches (op : Nat) (a : CmdArea) (s : State) : Prop :=
  match a.via with
  | .primary => hostUp s = true ∧ s.mgmt.pri.state = .idle ∧ isPrimary s = true ∧ (a.target = 0 ∨ a.target = 0xFF)
  | .secondary => smbusUp s = true ∧ s.mgmt.sec.state = .idle ∧ secondaryAccepts op = true ∧ (a.target = 0xFF ∨ (a.target = ownIndex s ∧ a.target < 64))
  | .relay => s.clk.reset = none ∧ (a.target < 64 ∨ a.target = 0xFF)

/-- R274, R426: a well made command that reaches Spindle, which runs; the device is not in containment. -/
def Served (op : Nat) (a : CmdArea) (s : State) : Prop :=
  Made a ∧ Reaches op a s ∧ s.mgmt.state = .running ∧ s.cons.contained = false ∧ s.mgmt.pri.ringIgnored ≤ 255

/-- R271, R273, R276: the state in which a mailbox has taken a command. -/
def taken (op : Nat) (a : CmdArea) (s : State) : State :=
  match a.via with
  | .primary => { s with mgmt := { s.mgmt with pri := { s.mgmt.pri with
      state := .taken, cmd := s.mgmt.pri.cmd.writeBytes 0 (areaBytes op a), op := op, cookie := a.cookie } } }
  | .secondary => { s with mgmt := { s.mgmt with sec := { s.mgmt.sec with state := .taken, op := op, cookie := a.cookie } } }
  | .relay => s

/-- R272: the command of an area is answered in a state, the way it came. -/
def reply (op : Nat) (a : CmdArea) (r : Reply) (s : State) : State := respond s a.via op a.cookie 0 (ownIndex s) r

/-- R272: the command is taken and answered at once, with no other effect. -/
def answer (op : Nat) (a : CmdArea) (r : Reply) (s : State) : State := reply op a r (taken op a s)

/-- The work of a command goes on (R298): it has been taken, and not answered. -/
def working (op : Nat) (a : CmdArea) (arg0 arg1 arg2 arg3 : Nat) (entries : List (Nat × Nat)) (s : State) : State :=
  let w : Work := { op := op, cookie := a.cookie, via := a.via, arg0 := arg0, arg1 := arg1, arg2 := arg2, arg3 := arg3, entries := entries }
  { s with mgmt := { s.mgmt with works := s.mgmt.works ++ [w] } }

/-- The command is taken, and answered OK with a payload of which P holds; nothing else changes. -/
def Tells (c : Instr) (op : Nat) (a : CmdArea) (s : State) (P : List Byte → Prop) : Prop :=
  ∃ p, P p ∧ Becomes c s (answer op a (replyOk p) (begin s))

/-! ## Ports -/

/-- Nothing waits at a port to be sent but completions: no SNP message, no link-control slot, no audit, no flit being packed, no replay. -/
def Quiet (x : Port) : Prop := x.tx.snpQ = [] ∧ x.tx.ctlQ = [] ∧ x.tx.auditDue = false ∧ x.tx.packed = [] ∧ x.tx.nakDue = false

/-! ## The ring -/

/-- R204, R206: a frame that arrives whole at a device that takes part in a ring, from another device. -/
def Arrives (typ : Nat) (f : RingFrame) (s : State) : Prop := onRing s = true ∧ frameGood typ f = true ∧ s.dom.index ≠ some f.src

/-- R206, R207: a frame sent on the ring, with its CRC. -/
def ringFrame (typ dst src hops : Nat) (payload : List Byte) : Output :=
  .ring typ dst src hops payload (crc32 (frameBytes typ dst src hops payload))

end Sys2Proof.Machine
end

