-- ==== Sys2Proof/Certificates/Slice0/Obligations.lean ====
section
/-! DEFINITION. The statements for the provers, from the numbered rules of the spec. Each docstring names the rules or tables whose
effect it states; what a statement takes from the model's own choice is said there, with its log entry. -/

open Sys2Proof Sys2Proof.Machine

/-! ## Commands that report (Tables CMD-3 to CMD-10) -/

/-- R296, R426: IDENTIFY and GET_STATUS, served, complete with OK and a payload that holds each field of Table CMD-3 at its bytes, with
zeros in the bytes that the table does not name, and nothing else of the device changes but the
watermarks and the intake, which every step may move. PORT_STATUS of a port, served, does so with the
fields of Table CMD-4: a link that is neither ACTIVE nor in RETRAIN, or a CXL link, reports GEN 0; the link of a CXL port that is not in
MAINT reports 6 when it is up and 1 otherwise; and the places that no active agent ID takes hold 0xFF. -/
def Obligations.IdentityAndStatusAnswer : Prop :=
  ((∀ a s, Sound s → Served 0x0100 a s → Tells (.identify a) 0x0100 a s fun p =>
    fld p 16 17 = 0x6424 ∧ fld p 18 18 = b2n s.fuses.is144 ∧ fld p 19 19 = s.fuses.stepping % 256 ∧
    (p.drop 4).take 16 = padTo 16 s.fuses.serial ∧
    fld p 36 39 = (match s.sec.running with | some im => im.version | none => 0) % 2 ^ 32 ∧
    fld p 40 40 = s.sec.active % 256 ∧ fld p 41 41 = nextSlot s % 256 ∧ fld p 42 43 = 0 ∧
    fld p 44 47 = slotVersion s (1 - s.sec.active) % 2 ^ 32 ∧ fld p 48 51 = svnMin s % 2 ^ 32 ∧
    fld p 52 52 = ownIndex s % 256 ∧ fld p 53 53 = b2n (isPrimary s) ∧ p.length = 38) ∧
  (∀ a s, Sound s → Served 0x0101 a s → Tells (.getStatus a) 0x0101 a s fun p =>
    fld p 16 16 = (match s.hbm.cache with | .enabled => 0 | .draining => 1 | .disabled => 2) ∧
    (bitOf (fld p 17 17) 0 = s.cons.contained ∧ bitOf (fld p 17 17) 1 = s.clk.homeOwn ∧ bitOf (fld p 17 17) 2 = s.cal.valid ∧
     bitOf (fld p 17 17) 3 = s.dom.timeValid ∧ bitOf (fld p 17 17) 4 = s.cons.salvage ∧ fld p 17 17 < 32) ∧
    fld p 18 18 = (s.hbm.stk.toList.map (·.step)).foldl max 0 % 256 ∧ fld p 19 19 = 0 ∧
    MaskOf (fld p 20 23) (fun k => if isOlk s k then (s.port k).link.state == .active else (s.port k).cxl.up) ∧
    MaskOf (fld p 24 27) (fun k => (s.port k).link.state == .maint) ∧ fld p 28 31 = 0 ∧
    fld p 32 39 = oLines s % 2 ^ 64 ∧ fld p 40 47 = freeExtents s % 2 ^ 64 ∧ fld p 48 55 = nowNs s % 2 ^ 64 ∧ p.length = 40)) ∧
  (∀ a s (p : Fin 24), Sound s → Served 0x0300 a s → 1 ≤ a.payload.length → fld a.payload 16 16 = p.val →
    let x := s.port p
    Tells (.portStatus a) 0x0300 a s fun q =>
      fld q 16 16 = (match personality s p with | .off => 0 | .peerOlk => 1 | .peerCxl2 => 2 | .peerCxl3 => 3 | .memOlk => 4 | .memCxl => 5) ∧
      fld q 17 17 = (if x.link.state = .maint then 8 else if personality s p = .off then 0
        else if isOlk s p = false then (if x.cxl.up then 6 else 1)
        else match x.link.state with
          | .disabled => 0 | .detect => 1 | .discovery => 2 | .config => 3 | .eq => 4 | .verify => 5 | .active => 6 | .retrain => 7 | .maint => 8) ∧
      fld q 18 18 = (if isOlk s p = true ∧ (x.link.state = .active ∨ x.link.state = .retrain) then x.link.gen % 256 else 0) ∧
      fld q 19 19 = (if isOlk s p then x.link.laneMask else x.cxl.laneMask).toNat ∧
      fld q 20 20 = x.epoch % 256 ∧ bitOf (fld q 21 21) 0 = x.enc.on ∧ bitOf (fld q 21 21) 1 = x.link.calPending ∧ fld q 21 21 < 4 ∧
      fld q 22 23 = 0 ∧ fld q 24 31 = x.sumpMsgs % 2 ^ 64 ∧ fld q 32 39 = x.tx.flitsReplayed % 2 ^ 64 ∧
      (∀ i < 8, fld q (40 + i) (40 + i) = (match (activeIds s p)[i]? with | some n => n % 256 | none => 255)) ∧
      (∀ n ∈ activeIds s p, (s.bind n).status = .active) ∧ q.length = 32)

/-- R286, R287, R291, R301: CFG_BEGIN opens a transaction under a TXN_ID that is not zero; CFG_SET stages a value and changes nothing in
force; CFG_GET reads; CFG_ROLLBACK ends the transaction with nothing applied. -/
def Obligations.TransactionsOpenStageAndEnd : Prop :=
  (∀ a s, Sound s → Served 0x0200 a s → 1 ≤ a.payload.length → s.mgmt.txn = none →
    (fld a.payload 16 16 = 0 ∨ (fld a.payload 16 16 = 1 ∧ a.via = .primary)) →
    let u := taken 0x0200 a (begin s)
    let next := if (s.mgmt.nextTxn + 1) % 2 ^ 32 = 0 then 1 else (s.mgmt.nextTxn + 1) % 2 ^ 32
    Becomes (.cfgBegin a) s (reply 0x0200 a (replyOk (leBytes 4 s.mgmt.nextTxn))
      { u with mgmt := { u.mgmt with txn := some { id := s.mgmt.nextTxn, domain := fld a.payload 16 16 == 1 }, nextTxn := next } }) ∧ next ≠ 0) ∧
  (∀ a s t, Sound s → Served 0x0200 a s → 1 ≤ a.payload.length → s.mgmt.txn = some t → fld a.payload 16 16 = 0 →
    Becomes (.cfgBegin a) s (answer 0x0200 a { status := stTxnOpen, detail := b2n t.domain } (begin s))) ∧
  (∀ a s t i, Sound s → Served 0x0201 a s → keyInfo (fld a.payload 20 23) = some i → fld a.payload 26 27 = i.len →
    12 + i.len ≤ a.payload.length → indexOk i (fld a.payload 24 25) = true → valueOk (fld a.payload 20 23) (leAt a.payload 12 i.len) = true →
    openTxn s (fld a.payload 16 19) = some t → i.domain = t.domain → t.staged.length < 4096 →
    let u := taken 0x0201 a (begin s)
    let e : CfgEnt := { key := fld a.payload 20 23, index := fld a.payload 24 25, value := leAt a.payload 12 i.len }
    Becomes (.cfgSet a) s (reply 0x0201 a replyOk { u with mgmt := { u.mgmt with
      txn := some { t with staged := upsert (fun x => x.key == e.key && x.index == e.index) e t.staged } } })) ∧
  (∀ a s t i, Sound s → Served 0x0201 a s → keyInfo (fld a.payload 20 23) = some i → fld a.payload 26 27 = i.len →
    12 + i.len ≤ a.payload.length → indexOk i (fld a.payload 24 25) = true → valueOk (fld a.payload 20 23) (leAt a.payload 12 i.len) = true →
    openTxn s (fld a.payload 16 19) = some t → i.domain ≠ t.domain →
    Becomes (.cfgSet a) s (answer 0x0201 a { status := stNotPermitted, detail := 0 } (begin s))) ∧
  (∀ a s i, Sound s → Served 0x0202 a s → keyInfo (fld a.payload 20 23) = some i → 11 ≤ a.payload.length →
    indexOk i (fld a.payload 24 25) = true → bitOf (fld a.payload 26 26) 0 = false →
    Tells (.cfgGet a) 0x0202 a s fun p => fld p 16 17 = i.len ∧ fld p 18 18 = 0 ∧
      leAt p 4 i.len = cfgGet s (fld a.payload 20 23) (fld a.payload 24 25) % 256 ^ i.len) ∧
  (∀ a s t, Sound s → Served 0x0204 a s → 4 ≤ a.payload.length → openTxn s (fld a.payload 16 19) = some t →
    let u := taken 0x0204 a (begin s)
    Becomes (.cfgRollback a) s (reply 0x0204 a replyOk { u with mgmt := { u.mgmt with txn := none } })) ∧
  (∀ a s, Sound s → Served 0x0204 a s → 4 ≤ a.payload.length → openTxn s (fld a.payload 16 19) = none →
    Becomes (.cfgRollback a) s (answer 0x0204 a { status := stNoTxn } (begin s)))

/-- R288, R289: CFG_COMMIT of an empty transaction completes with OK; of values that fail a rule it completes with VALIDATION_FAILED, its
DETAIL, key, index and device, and nothing is applied; of values that hold it is taken, and the transaction drains or waits for its window. -/
def Obligations.CommitValidatesAndArms : Prop :=
  let begun := fun (a : CmdArea) (s : State) (t : CfgTxn) =>
    let u := taken 0x0203 a (begin s)
    working 0x0203 a 0 0 0 0 [] { u with mgmt := { u.mgmt with txn := some { t with cookie := a.cookie, via := a.via } } }
  ∀ a s t, Sound s → Served 0x0203 a s → 4 ≤ a.payload.length → openTxn s (fld a.payload 16 19) = some t → t.domain = false →
    s.dom.prepared = none →
    (t.staged = [] → Becomes (.cfgCommit a) s (kept s (commitEnds (noteCommitted (begun a s t)) replyOk))) ∧
    (∀ x, t.staged ≠ [] → validate s t.staged = some x →
      Becomes (.cfgCommit a) s (answer 0x0203 a
        { status := stInvalid, detail := x.1, payload := leBytes 4 x.2.1 ++ leBytes 2 x.2.2 ++ leBytes 1 (ownIndex s) }
        { begin s with mgmt := { s.mgmt with txn := none } })) ∧
    (t.staged ≠ [] → validate s t.staged = none →
      let any := t.staged.any (isDisruptive s)
      let u := begun a s t
      Becomes (.cfgCommit a) s (kept s (settleAll (startDrain
        { u with mgmt := { u.mgmt with txn := some { t with cookie := a.cookie, via := a.via, phase := if any then .draining else .armed } } } t.staged))))


/-- R302, R57: PORT_MAINT enter drains the port and goes on; leave, with no calibration running, ends MAINT at once. PORT_CALIBRATE runs in
MAINT, else it is kept and answered DEFERRED. On a port of personality OFF the three commands answer BAD_ARG. -/
def Obligations.PortMaintAndCalibrate : Prop :=
  (∀ a s (p : Fin 24), Sound s → Served 0x0301 a s → 2 ≤ a.payload.length → fld a.payload 16 16 = p.val → personality s p ≠ .off →
    (fld a.payload 17 17 = 0 → (s.port p).link.state ≠ .maint →
      Becomes (.portMaint a) s (working 0x0301 a p 0 0 0 []
        ((taken 0x0301 a (begin s)).updPort p fun x => { x with link := { x.link with draining := true } }))) ∧
    (fld a.payload 17 17 = 0 → (s.port p).link.state = .maint → Becomes (.portMaint a) s (answer 0x0301 a replyOk (begin s))) ∧
    (fld a.payload 17 17 = 1 → (s.port p).link.state = .maint → (s.port p).link.calRunning = true →
      Becomes (.portMaint a) s (working 0x0301 a p 1 0 0 [] (taken 0x0301 a (begin s)))) ∧
    (fld a.payload 17 17 = 1 → (s.port p).link.state = .maint → (s.port p).link.calRunning = false →
      Becomes (.portMaint a) s (kept s (reply 0x0301 a replyOk (leaveMaint (taken 0x0301 a (begin s)) p))))) ∧
  (∀ a s (p : Fin 24), Sound s → Served 0x0302 a s → 1 ≤ a.payload.length → fld a.payload 16 16 = p.val → personality s p ≠ .off →
    ((s.port p).link.state = .maint →
      Becomes (.portCalibrate a) s (working 0x0302 a p 0 0 0 []
        ((taken 0x0302 a (begin s)).updPort p fun x => { x with link := { x.link with calRunning := true } }))) ∧
    ((s.port p).link.state ≠ .maint →
      Becomes (.portCalibrate a) s (reply 0x0302 a { status := stDeferred }
        ((taken 0x0302 a (begin s)).updPort p fun x => { x with link := { x.link with calPending := true } })))) ∧
  (∀ a s (p : Fin 24), Sound s → Served 0x0303 a s → 1 ≤ a.payload.length → fld a.payload 16 16 = p.val → personality s p ≠ .off →
    Becomes (.portReset a) s (kept s (reply 0x0303 a replyOk
      (linkDown (taken 0x0303 a (begin s)) p (if isOlk s p then .detect else .disabled))))) ∧
  (∀ a s (p : Fin 24), Sound s → fld a.payload 16 16 = p.val → personality s p = .off → 2 ≤ a.payload.length →
    (Served 0x0301 a s → fld a.payload 17 17 ≤ 1 → Becomes (.portMaint a) s (answer 0x0301 a replyBad (begin s))) ∧
    (Served 0x0302 a s → Becomes (.portCalibrate a) s (answer 0x0302 a replyBad (begin s))) ∧
    (Served 0x0303 a s → Becomes (.portReset a) s (answer 0x0303 a replyBad (begin s))))
/-- R177, R296: PART_STATUS, POOL_STATUS and CACHE_STATUS, served, complete with OK and a payload that holds each field of Tables CMD-5 and
CMD-6 at its bytes, with zeros in the bytes that the tables do not name. PART_STATUS with CLEAR_REFUSED clears the refusal it shows; apart
from that nothing of the device changes but the watermarks and the intake, which every step may move. A frame being evicted counts as
present (DEDUCED, the model's reading: assumption 29). -/
def Obligations.PoolAndCacheReports : Prop :=
  ((∀ a s, Sound s → Served 0x0400 a s → 2 ≤ a.payload.length →
    let q := fld a.payload 16 16
    let u := taken 0x0400 a (begin s)
    ∃ p, (fld p 16 19 = (partState s q).alloc % 2 ^ 32 ∧
        fld p 20 23 = (s.pool.fxs.countP fun e => e.state == .lost && e.part == q) % 2 ^ 32 ∧
        fld p 24 24 = b2n (partState s q).refused ∧ fld p 25 25 = (partState s q).firstCode % 256 ∧ fld p 26 27 = 0 ∧
        fld p 28 31 = (s.pool.fxs.countP fun e => e.state == .allocated && e.triple && e.part == q) % 2 ^ 32 ∧ p.length = 16) ∧
      Becomes (.partStatus a) s (reply 0x0400 a (replyOk p)
        (if bitOf (fld a.payload 17 17) 0 then updPart u q fun y => { y with refused := false, firstCode := 0 } else u))) ∧
  (∀ a s, Sound s → Served 0x0401 a s → Tells (.poolStatus a) 0x0401 a s fun p =>
    fld p 16 19 = freeExtents s % 2 ^ 32 ∧ fld p 20 23 = (s.pool.recs.countP (·.retired)) % 2 ^ 32 ∧
    fld p 24 27 = (((List.finRange 24).map fun k => if (s.port k).mem.taken then (s.port k).mem.ek else 0).sum) % 2 ^ 32 ∧
    fld p 28 31 = (s.pool.fxs.countP fun e => e.state == .allocated && e.triple) % 2 ^ 32 ∧
    (∀ k : Fin 24, let m := (s.port k).mem
      leAt p (16 + 16 * k) 4 = m.ek % 2 ^ 32 ∧ leAt p (20 + 16 * k) 4 = m.bxBase % 2 ^ 32 ∧ leAt p (24 + 16 * k) 4 = freeOf m % 2 ^ 32 ∧
      leAt p (28 + 16 * k) 2 = m.metaExt % 2 ^ 16 ∧ bitOf (leAt p (30 + 16 * k) 1) 0 = m.taken ∧ bitOf (leAt p (30 + 16 * k) 1) 1 = m.unreachable ∧
      leAt p (30 + 16 * k) 1 < 4 ∧
      leAt p (31 + 16 * k) 1 = (match m.desc with | some d => d.mode | none => 0) % 256) ∧
    p.length = 400)) ∧
  (∀ a s, Sound s → Served 0x0504 a s → Tells (.cacheStatus a) 0x0504 a s fun p =>
    fld p 16 16 = (match s.hbm.cache with | .enabled => 0 | .draining => 1 | .disabled => 2) ∧
    bitOf (fld p 17 17) 0 = (List.finRange 16).any (fun k => (s.slc k).drain.active) ∧
    bitOf (fld p 17 17) 1 = (List.finRange 16).any (fun k => (s.slc k).flush.active) ∧ fld p 17 17 < 4 ∧ fld p 18 19 = 0 ∧
    fld p 20 23 = (s.hbm.frames.countP fun x => x.state == .present || x.state == .evicting) % 2 ^ 32 ∧
    fld p 24 27 = (hankCount s.fuses.is144 - (s.hbm.frames.countP fun x => x.state == .present || x.state == .evicting) -
      (s.hbm.frames.countP fun x => x.state == .retired)) % 2 ^ 32 ∧
    fld p 28 31 = (s.hbm.frames.countP fun x => x.state == .retired) % 2 ^ 32 ∧
    fld p 32 39 = oLines s % 2 ^ 64 ∧ fld p 40 47 = ((List.finRange 16).map fun k => (s.slc k).wbuf.length).sum % 2 ^ 64 ∧
    fld p 48 48 = s.hbm.banks.length % 256 ∧ p.length = 33)

/-- R298, R299, R303, R305: DISCARD_RANGE and PAGE_COPY with well made arguments are taken and run on, unless work of their kind runs,
which answers NOT_PERMITTED with DETAIL 0x0103; arguments that are not well made answer BAD_ARG.
R304: POOL_ERASE with its key, the cache DISABLED and every peer port in MAINT, writes a new pool generation, frees every extent that
is not retired, empties the page map and answers OK; otherwise it answers NOT_PERMITTED with DETAIL 0x0401 and changes nothing. -/
def Obligations.DiscardCopyAndErase : Prop :=
  ((∀ a s, Sound s → Served 0x0410 a s → 20 ≤ a.payload.length →
    let base := fld a.payload 16 23
    let len := fld a.payload 24 31
    let made := base % 4096 = 0 ∧ len % 4096 = 0 ∧ len ≠ 0 ∧ base + len ≤ 2 ^ 52 ∧ 1 ≤ fld a.payload 32 35 ∧ fld a.payload 32 35 ≤ 60000
    (made → (∀ w ∈ s.mgmt.works, w.op ≠ 0x0410) →
      Becomes (.discardRange a) s (working 0x0410 a base len (base / 64) 0 [] (taken 0x0410 a (begin s)))) ∧
    (made → (∃ w ∈ s.mgmt.works, w.op = 0x0410) →
      Becomes (.discardRange a) s (answer 0x0410 a { status := stNotPermitted, detail := 0x0103 } (begin s))) ∧
    (¬ made → Becomes (.discardRange a) s (answer 0x0410 a { status := stBadArg } (begin s)))) ∧
  (∀ a s, Sound s → Served 0x0412 a s → 28 ≤ a.payload.length →
    let src := fld a.payload 16 23
    let dst := fld a.payload 24 31
    let len := fld a.payload 32 39
    let made := src % 4096 = 0 ∧ dst % 4096 = 0 ∧ len % 4096 = 0 ∧ len ≠ 0 ∧ src + len ≤ 2 ^ 52 ∧ dst + len ≤ 2 ^ 52 ∧
      1 ≤ fld a.payload 40 43 ∧ fld a.payload 40 43 ≤ 60000 ∧ (src + len ≤ dst ∨ dst + len ≤ src) ∧
      rangeMapped s src len = true ∧ rangeMapped s dst len = true
    (made → (∀ w ∈ s.mgmt.works, w.op ≠ 0x0412) →
      Becomes (.pageCopy a) s (working 0x0412 a src len 0 dst [] (taken 0x0412 a (begin s)))) ∧
    (made → (∃ w ∈ s.mgmt.works, w.op = 0x0412) →
      Becomes (.pageCopy a) s (answer 0x0412 a { status := stNotPermitted, detail := 0x0103 } (begin s))))) ∧
  ((∀ a s, Sound s → Served 0x0411 a s → 4 ≤ a.payload.length → fld a.payload 16 19 = 0x53415245 →
    (s.hbm.cache = .disabled → (∀ p, isPeer s p = true → (s.port p).link.state = .maint) →
      Becomes (.poolErase a) s (kept s (reply 0x0411 a replyOk (eraseDirectory (erasePool (newGeneration (taken 0x0411 a (begin s)))))))) ∧
    (s.hbm.cache ≠ .disabled ∨ (∃ p, isPeer s p = true ∧ (s.port p).link.state ≠ .maint) →
      Becomes (.poolErase a) s (answer 0x0411 a { status := stNotPermitted, detail := 0x0401 } (begin s)))) ∧
  (∀ s, (newGeneration s).led.poolGen = s.led.poolGen + 1 ∧ (erasePool s).pool.fxs = [] ∧ (erasePool s).pool.triples = [] ∧
    (erasePool s).pool.recs = s.pool.recs.filter (·.retired) ∧ (∀ x ∈ (erasePool s).pool.parts, x.part ≠ 0 → x.alloc = 0) ∧
    (erasePool s).slices = s.slices))
/-- R155, R156, R158: CACHE_DISABLE from ENABLED arms DRAINING for the next window and runs on; in DRAINING it waits, in DISABLED it
answers OK at once. CACHE_ENABLE arms ENABLED and runs on, or answers OK at once when the cache is ENABLED and nothing is armed.
R159, R160, R306: CACHE_FLUSH with the cache ENABLED starts a walker in every slice, PERSIST_FLUSH a directory sweep in every slice;
each waits for the write-buffer entries and the eviction slots of its range, and one that meets work of their kinds answers NOT_PERMITTED with DETAIL 0x0103. -/
def Obligations.CacheCommandsStartTheirWork : Prop :=
  ((∀ a s, Sound s → Served 0x0500 a s → 4 ≤ a.payload.length → 1 ≤ fld a.payload 16 19 → fld a.payload 16 19 ≤ 60000 →
    let u := taken 0x0500 a (begin s)
    (s.hbm.cache = .enabled →
      Becomes (.cacheDisable a) s (working 0x0500 a 0 0 0 0 [] { u with mgmt := { u.mgmt with windowCache := some .draining } })) ∧
    (s.hbm.cache = .draining → Becomes (.cacheDisable a) s (working 0x0500 a 0 0 0 0 [] u)) ∧
    (s.hbm.cache = .disabled → Becomes (.cacheDisable a) s (answer 0x0500 a replyOk (begin s)))) ∧
  (∀ a s, Sound s → Served 0x0501 a s →
    let u := taken 0x0501 a (begin s)
    ((s.hbm.cache ≠ .enabled ∨ s.mgmt.windowCache ≠ none) →
      Becomes (.cacheEnable a) s (working 0x0501 a 0 0 0 0 [] { u with mgmt := { u.mgmt with windowCache := some .enabled } })) ∧
    (s.hbm.cache = .enabled → s.mgmt.windowCache = none → Becomes (.cacheEnable a) s (answer 0x0501 a replyOk (begin s))))) ∧
  ((∀ a s, Sound s → Served 0x0502 a s → 4 ≤ a.payload.length → 1 ≤ fld a.payload 16 19 → fld a.payload 16 19 ≤ 60000 →
    (s.hbm.cache = .enabled → (∀ w ∈ s.mgmt.works, w.op ≠ 0x0502 ∧ w.op ≠ 0x0503) →
      ∃ v, Becomes (.cacheFlush a) s (working 0x0502 a 0 0 0 0 (entriesIn s 0 (2 ^ 52)) v) ∧
        v = { taken 0x0502 a (begin s) with slices := v.slices } ∧
        (∀ k, v.slc k = { s.slc k with flush := { active := true }, slots := (s.slc k).slots.map fun x =>
          { x with flushed := x.flushed || decide (x.outHank < 2 ^ 40) } })) ∧
    (s.hbm.cache ≠ .enabled → (∀ w ∈ s.mgmt.works, w.op ≠ 0x0502 ∧ w.op ≠ 0x0503) →
      Becomes (.cacheFlush a) s (kept s (checkWorks (working 0x0502 a 0 0 1 0 (entriesIn s 0 (2 ^ 52))
        (markSlots 0 (2 ^ 40) (taken 0x0502 a (begin s))))))) ∧
    ((∃ w ∈ s.mgmt.works, w.op = 0x0502 ∨ w.op = 0x0503) →
      Becomes (.cacheFlush a) s (answer 0x0502 a { status := stNotPermitted, detail := 0x0103 } (begin s)))) ∧
  (∀ a s, Sound s → Served 0x0503 a s → 20 ≤ a.payload.length →
    let base := fld a.payload 16 23
    let len := fld a.payload 24 31
    base % 4096 = 0 → len % 4096 = 0 → len ≠ 0 → base + len ≤ 2 ^ 52 → 1 ≤ fld a.payload 32 35 → fld a.payload 32 35 ≤ 60000 →
    ((∀ w ∈ s.mgmt.works, w.op ≠ 0x0502 ∧ w.op ≠ 0x0503) →
      ∃ v, Becomes (.persistFlush a) s (working 0x0503 a base len 0 0 (entriesIn s base len) v) ∧
        v = { taken 0x0503 a (begin s) with slices := v.slices } ∧
        (∀ k, v.slc k = { s.slc k with persistPos := some 0, slots := (s.slc k).slots.map fun x =>
          { x with flushed := x.flushed || decide (base / 4096 ≤ x.outHank ∧ x.outHank < (base + len) / 4096) } })) ∧
    ((∃ w ∈ s.mgmt.works, w.op = 0x0502 ∨ w.op = 0x0503) →
      Becomes (.persistFlush a) s (answer 0x0503 a { status := stNotPermitted, detail := 0x0103 } (begin s)))))

/-- AGENT_STATUS answers the binding entry of an agent ID (Table DOM-5); AGENT_DISOWN of a caching ID that is not active starts a sweep in
every slice and runs on; of an active one, its epoch advances first, withdrawn for its link-up (R307). -/
def Obligations.AgentCommands : Prop :=
  (∀ a s, Sound s → Served 0x0600 a s → 1 ≤ a.payload.length → Tells (.agentStatus a) 0x0600 a s fun p =>
    let i := fld a.payload 16 16
    let b := s.bind i
    bits (fld p 16 19) 6 0 = cfgGet s keyBind i % 128 ∧ (b.epoch < 256 → bits (fld p 16 19) 14 7 = b.epoch) ∧
    (b.epoch < 256 → bits (fld p 16 19) 16 15 = (match b.status with | .idle => 0 | .active => 1 | .withdrawn => 2 | .disowning => 3)) ∧
    fld p 20 20 = b2n b.failed ∧ p.length = 5) ∧
  (∀ a s, Sound s → Served 0x0601 a s → 1 ≤ a.payload.length → fld a.payload 16 16 < 64 →
    let i := fld a.payload 16 16
    ((∃ w ∈ s.mgmt.works, w.op = 0x0601) →
      Becomes (.agentDisown a) s (answer 0x0601 a { status := stNotPermitted, detail := 0x0103 } (begin s))) ∧
    ((∀ w ∈ s.mgmt.works, w.op ≠ 0x0601) →
      (((s.bind i).status = .idle ∨ (s.bind i).status = .withdrawn) →
        ∃ v, Becomes (.agentDisown a) s (working 0x0601 a i 0 0 0 [] v) ∧
          v = { taken 0x0601 a (begin s) with slices := v.slices, binds := v.binds, disown := s.disown ||| oneHot i } ∧
          v.bind i = { s.bind i with status := .disowning, after := (s.bind i).status } ∧ (∀ j, j ≠ i → v.bind j = s.bind j) ∧
          (∀ k, v.slc k = { s.slc k with disownPos := some 0 })) ∧
      ((s.bind i).status = .disowning → Becomes (.agentDisown a) s (working 0x0601 a i 0 0 0 [] (taken 0x0601 a (begin s)))) ∧
      ((s.bind i).status = .active →
        Becomes (.agentDisown a) s (kept s (working 0x0601 a i 0 0 0 []
          (settleAll (agentAdvance (taken 0x0601 a (begin s)) i (some 2) .withdrawn)))))))
/-- R248, R308, R309: SCRUB_RANGE with well made arguments starts a scrub of its range at its rate and answers OK, or NOT_PERMITTED with
DETAIL 0x0103 while one runs; with any other it answers BAD_ARG. SCRUB_STATUS answers each field of Table PROT-7, and all ones for an
address that it does not have. LOG_READ answers the records held from START_SEQ on, at most COUNT, in SEQ order, or from the oldest record
held when START_SEQ has been overwritten, with byte 33 bit 0 set then; with no record it answers OK too; and of a record whose line is
uncorrectable it shows the SEQ alone. -/
def Obligations.ScrubAndLogCommands : Prop :=
  (∀ a s, Sound s → Served 0x0700 a s → 24 ≤ a.payload.length → unnamedZero [(16, 19), (24, 39)] a.payload = true →
    let base := fld a.payload 24 31
    let len := fld a.payload 32 39
    let rate := fld a.payload 18 19
    let u := taken 0x0700 a (begin s)
    let hbm := fld a.payload 16 16 = 0 ∧ rate ≠ 0 ∧ len ≠ 0 ∧ base % 4096 = 0 ∧ len % 4096 = 0 ∧ base + len ≤ hbmTop s.fuses.is144
    let backing := fun (p : Fin 24) => fld a.payload 16 16 = 1 ∧ fld a.payload 17 17 = p.val ∧ rate ≠ 0 ∧ len ≠ 0 ∧
      (s.port p).mem.taken = true ∧ base % 2 ^ 21 = 0 ∧ len % 2 ^ 21 = 0 ∧ base + len ≤ (s.port p).mem.ek * 2 ^ 21
    (hbm → s.prot.scrub.state ≠ 1 → Becomes (.scrubRange a) s (reply 0x0700 a replyOk
      { u with prot := { u.prot with scrub := { state := 1, hbm := true, next := base, start := base, stop := base + len, rate := rate } } })) ∧
    (∀ p, backing p → s.prot.scrub.state ≠ 1 → Becomes (.scrubRange a) s (reply 0x0700 a replyOk
      { u with prot := { u.prot with scrub := { state := 1, hbm := false, port := p, next := base / 64, start := base / 64,
                                                stop := (base + len) / 64, rate := rate } } })) ∧
    ((hbm ∨ ∃ p, backing p) → s.prot.scrub.state = 1 →
      Becomes (.scrubRange a) s (answer 0x0700 a { status := stNotPermitted, detail := 0x0103 } (begin s))) ∧
    (¬ hbm → (∀ p, ¬ backing p) → Becomes (.scrubRange a) s (answer 0x0700 a { status := stBadArg } (begin s)))) ∧
  (∀ a s, Sound s → Served 0x0701 a s → s.prot.scrub.addrs.length ≤ 16 → Tells (.scrubStatus a) 0x0701 a s fun q =>
    let x := s.prot.scrub
    fld q 16 16 = x.state % 256 ∧ fld q 17 23 = 0 ∧ fld q 24 31 = x.read % 2 ^ 64 ∧ fld q 32 39 = x.skipped % 2 ^ 64 ∧
    fld q 40 43 = x.corrected % 2 ^ 32 ∧ fld q 44 47 = x.uncorrectable % 2 ^ 32 ∧ fld q 48 51 = x.persistent % 2 ^ 32 ∧ fld q 52 55 = 0 ∧
    (∀ i < 16, fld q (56 + 8 * i) (63 + 8 * i) =
      (match x.addrs[i]? with | some n => (if x.hbm then n else n * 64) % 2 ^ 64 | none => 2 ^ 64 - 1)) ∧ q.length = 168) ∧
  (∀ a s, Sound s → Served 0x0703 a s → 9 ≤ a.payload.length → 1 ≤ fld a.payload 24 24 → fld a.payload 24 24 ≤ 63 →
    s.prot.log.Pairwise (fun x y => y.seq < x.seq) →
    let first := match s.prot.log.getLast? with
      | some r => max (fld a.payload 16 23) r.seq
      | none => max (fld a.payload 16 23) s.prot.nextSeq
    ∃ rs : List LogRec, (∀ r, r ∈ rs ↔ r ∈ s.prot.log ∧ first ≤ r.seq ∧ r.seq < first + fld a.payload 24 24) ∧
      rs.Pairwise (fun x y => x.seq < y.seq) ∧
      Tells (.logRead a) 0x0703 a s fun q =>
        fld q 16 23 = first % 2 ^ 64 ∧ fld q 24 31 = s.prot.nextSeq % 2 ^ 64 ∧ fld q 32 32 = rs.length ∧
        fld q 33 33 = b2n (decide (fld a.payload 16 23 < first)) ∧ q.length = (if rs = [] then 18 else 32 + 64 * rs.length) ∧
        (∀ i r, rs[i]? = some r → (q.drop (32 + 64 * i)).take 64 = logBytes r)) ∧
  (∀ r : LogRec, (logBytes r).length = 64 ∧ leAt (logBytes r) 8 8 = r.seq % 2 ^ 64 ∧
    (r.lost = true → leAt (logBytes r) 0 8 = 0 ∧ ∀ i, 16 ≤ i → (logBytes r).getD i 0 = 0) ∧
    (r.lost = false → leAt (logBytes r) 0 8 = r.time % 2 ^ 64 ∧ leAt (logBytes r) 16 1 = r.cls % 256 ∧ leAt (logBytes r) 18 1 = r.srcKind % 256 ∧
      leAt (logBytes r) 19 1 = r.src % 256 ∧ leAt (logBytes r) 20 4 = r.count % 2 ^ 32 ∧ leAt (logBytes r) 24 8 = r.addr.getD 0 % 2 ^ 64 ∧
      leAt (logBytes r) 35 1 = r.severity % 256 ∧ leAt (logBytes r) 36 16 = r.detail % 2 ^ 128))

/-- R250 to R254, R308: RETIRE of what is retired already answers OK at once. Below the limit of its kind, a free extent is retired and
answered OK; a frame waits until it has been emptied; a bank is excluded from then on and its frames wait. At the limit it answers
NOT_PERMITTED with DETAIL 0x0701. -/
def Obligations.RetireCommand : Prop :=
  (∀ a s (p : Fin 24), Sound s → Served 0x0702 a s → 8 ≤ a.payload.length → unnamedZero [(16, 17), (20, 23)] a.payload = true →
    fld a.payload 16 16 = 0 → fld a.payload 17 17 = p.val → (s.port p).mem.taken = true →
    fld a.payload 20 23 < (s.port p).mem.ek - (s.port p).mem.metaExt →
    let bx := (s.port p).mem.bxBase + fld a.payload 20 23
    (∀ r, recOf s bx = some r → r.retired = true → Becomes (.retire a) s (answer 0x0702 a replyOk (begin s))) ∧
    (recOf s bx = none → retiredCount s 0 < retireLimit 0 →
      Becomes (.retire a) s (kept s (reply 0x0702 a replyOk (retireFree (taken 0x0702 a (begin s)) p (fld a.payload 20 23) bx)))) ∧
    (recOf s bx = none → retireLimit 0 ≤ retiredCount s 0 →
      Becomes (.retire a) s (answer 0x0702 a { status := stNotPermitted, detail := 0x0701 } (begin s)))) ∧
  (∀ a s, Sound s → Served 0x0702 a s → 8 ≤ a.payload.length → unnamedZero [(16, 16), (20, 23)] a.payload = true →
    fld a.payload 16 16 = 1 → fld a.payload 20 23 < hankCount s.fuses.is144 →
    let f := fld a.payload 20 23
    (isRetired s f = true → Becomes (.retire a) s (answer 0x0702 a replyOk (begin s))) ∧
    (isRetired s f = false → retiredCount s 1 < retireLimit 1 →
      Becomes (.retire a) s (kept s (settleAll (working 0x0702 a 1 f 0 0 [(f, 0)] (taken 0x0702 a (begin s)))))) ∧
    (isRetired s f = false → retireLimit 1 ≤ retiredCount s 1 →
      Becomes (.retire a) s (answer 0x0702 a { status := stNotPermitted, detail := 0x0701 } (begin s)))) ∧
  (∀ a s, Sound s → Served 0x0702 a s → 5 ≤ a.payload.length → fld a.payload 16 16 = 2 → fld a.payload 17 17 ≤ 3 →
    fld a.payload 18 18 ≤ 15 → fld a.payload 19 19 < nsid s.fuses.is144 → fld a.payload 20 20 ≤ 3 →
    let bank := (fld a.payload 17 17, fld a.payload 18 18, fld a.payload 19 19, fld a.payload 20 20)
    (bank ∉ s.hbm.banks → retireLimit 2 ≤ s.hbm.banks.length →
      Becomes (.retire a) s (answer 0x0702 a { status := stNotPermitted, detail := 0x0701 } (begin s))) ∧
    (bank ∉ s.hbm.banks → s.hbm.banks.length < retireLimit 2 → s.hbm.bankJob = none →
      let n := s.hbm.banks.length
      let u := taken 0x0702 a (begin s)
      Becomes (.retire a) s (kept s (settleAll (working 0x0702 a 2 n 0 0 ((bankFrames s.fuses.is144 bank).map fun f => (f, 0))
        { u with hbm := { u.hbm with banks := s.hbm.banks ++ [bank], bankJob := some (n, 0) } })))))
/-- R319 to R323, Table CMD-8: CTR_PROGRAM selects an event and leaves the value; CTR_WRITE writes the value; CTR_FREEZE freezes and thaws
groups; CTR_READ answers the words of a range. CTR_WRITE of an enabled counter that is not frozen drops a number of increments that the
spec leaves open (assumption 3). -/
def Obligations.CounterCommands : Prop :=
  (∀ a s, Sound s → Served 0x0800 a s → 10 ≤ a.payload.length → unnamedZero [(16, 18), (20, 25)] a.payload = true →
    let n := fld a.payload 16 17
    n < 832 → eventOk n (fld a.payload 20 23) (fld a.payload 24 24) = true →
    let u := taken 0x0800 a (begin s)
    ∃ v, Becomes (.ctrProgram a) s (reply 0x0800 a replyOk v) ∧ v = { u with obs := { u.obs with ctrs := v.obs.ctrs } } ∧
      counterOf v n = { counterOf s n with enable := bitOf (fld a.payload 18 18) 0, event := fld a.payload 20 23,
                                           qualKind := fld a.payload 24 24, qualValue := fld a.payload 25 25 } ∧
      ∀ m, m ≠ n → counterOf v m = counterOf s m) ∧
  (∀ a s, Sound s → Served 0x0801 a s → 16 ≤ a.payload.length → unnamedZero [(16, 18), (24, 31)] a.payload = true →
    let n := fld a.payload 16 17
    n < 832 → fld a.payload 24 31 < 2 ^ 48 →
    let u := taken 0x0801 a (begin s)
    ∃ v, Becomes (.ctrWrite a) s (reply 0x0801 a replyOk v) ∧
      v = { u with obs := { u.obs with ctrs := v.obs.ctrs, dropped := v.obs.dropped }, fresh := v.fresh } ∧ s.obs.dropped ≤ v.obs.dropped ∧
      ((counterOf s n).enable = false → v.obs.dropped = s.obs.dropped ∧ v.fresh = s.fresh) ∧
      (counterOf v n).value = BitVec.ofNat 48 (fld a.payload 24 31) ∧
      (counterOf v n).ovf = ((counterOf s n).ovf && !(bitOf (fld a.payload 18 18) 0)) ∧
      (counterOf v n).event = (counterOf s n).event ∧ (counterOf v n).enable = (counterOf s n).enable ∧
      ∀ m, m ≠ n → counterOf v m = counterOf s m) ∧
  (∀ a s, Sound s → Served 0x0802 a s → 2 ≤ a.payload.length → fld a.payload 16 16 ≤ 19 → fld a.payload 17 17 ≤ 1 →
    let g := fld a.payload 16 16
    let u := taken 0x0802 a (begin s)
    ∃ v, Becomes (.ctrFreeze a) s (reply 0x0802 a replyOk v) ∧ v = { u with obs := { u.obs with frozen := v.obs.frozen } } ∧
      ∀ x, 1 ≤ x → x ≤ 19 → (x ∈ v.obs.frozen ↔ if g = 0 ∨ g = x then fld a.payload 17 17 = 1 else x ∈ s.obs.frozen)) ∧
  (∀ a s, Sound s → Served 0x0803 a s → 4 ≤ a.payload.length →
    let first := fld a.payload 16 17
    let n := fld a.payload 18 19
    1 ≤ n → n ≤ 500 → first + n ≤ 832 → Tells (.ctrRead a) 0x0803 a s fun q =>
      fld q 16 17 = first ∧ fld q 18 19 = n ∧ q.length = 8 + 8 * n ∧
      ∀ i, i < n → leAt q (8 + 8 * i) 8 = ctrWord (counterOf s (first + i)) % 2 ^ 64)

/-- R310, R328, R329, R333, R335: SLOT_READ answers the class counters of a slice in slot mode, HIST_READ the bins of a port and class in
histogram mode; each in the other mode answers NOT_PERMITTED with DETAIL 0x0801. TRACE_CONTROL stops or starts the trace, or discards its
contents and the pending loss count, after which records held for want of space are placed.
R255, R375, R376, R378, R311: SELFTEST of the checkers is deferred to the next start-up, of the aging monitors runs on; LEDGER_READ answers
the number of entries of an area and, from START, as many of them as fit, in order; CALENDAR_SET sets the calendar and writes it to the
ledger. -/
def Obligations.TraceSelftestLedgerAndCalendar : Prop :=
  ((∀ a s (k : Fin 16), Sound s → Served 0x0820 a s → 1 ≤ a.payload.length → fld a.payload 16 16 = k.val →
    let x := s.slices[k].cls
    (s.obs.histMode = false → Tells (.slotRead a) 0x0820 a s fun q =>
      fld q 16 23 = s.obs.cycles % 2 ^ 64 ∧ fld q 24 31 = x.retired % 2 ^ 64 ∧ fld q 32 39 = x.wasted % 2 ^ 64 ∧
      fld q 40 47 = x.front % 2 ^ 64 ∧ fld q 48 55 = x.back % 2 ^ 64 ∧ q.length = 40) ∧
    (s.obs.histMode = true → Becomes (.slotRead a) s (answer 0x0820 a { status := stNotPermitted, detail := 0x0801 } (begin s)))) ∧
  (∀ a s (p : Fin 24), Sound s → Served 0x0821 a s → 2 ≤ a.payload.length → fld a.payload 16 16 = p.val → fld a.payload 17 17 < 8 →
    (s.obs.histMode = true → Tells (.histRead a) 0x0821 a s fun q =>
      q.length = 264 ∧ ∀ i, i < 32 → leAt q (8 + 8 * i) 8 = histGet s p (fld a.payload 17 17) i % 2 ^ 64) ∧
    (s.obs.histMode = false → Becomes (.histRead a) s (answer 0x0821 a { status := stNotPermitted, detail := 0x0801 } (begin s)))) ∧
  (∀ a s, Sound s → Served 0x0810 a s → 1 ≤ a.payload.length →
    let u := taken 0x0810 a (begin s)
    (fld a.payload 16 16 = 0 → Becomes (.traceControl a) s (reply 0x0810 a replyOk { u with obs := { u.obs with running := false } })) ∧
    (fld a.payload 16 16 = 1 → Becomes (.traceControl a) s (reply 0x0810 a replyOk { u with obs := { u.obs with running := true } })) ∧
    (fld a.payload 16 16 = 2 → Becomes (.traceControl a) s (kept s (reply 0x0810 a replyOk (releaseHeld s.obs.stalled.length
      { u with obs := { u.obs with trace := [], readLeft := [], traceHidden := 0, traceFreed := 0, lossPending := 0 } })))) ∧
    (2 < fld a.payload 16 16 → Becomes (.traceControl a) s (answer 0x0810 a { status := stBadArg } (begin s))))) ∧
  ((∀ a s, Sound s → Served 0x0910 a s → 1 ≤ a.payload.length →
    let u := taken 0x0910 a (begin s)
    (fld a.payload 16 16 = 0 → Becomes (.selftest a) s (reply 0x0910 a { status := stDeferred, payload := leBytes 1 1 }
      { u with prot := { u.prot with selftestNext := true } })) ∧
    (fld a.payload 16 16 = 1 → Becomes (.selftest a) s (working 0x0910 a 0 0 0 0 [] u)) ∧
    (2 ≤ fld a.payload 16 16 → Becomes (.selftest a) s (answer 0x0910 a { status := stBadArg } (begin s)))) ∧
  (∀ a s, Sound s → Served 0x0A00 a s → 8 ≤ a.payload.length → unnamedZero [(16, 16), (20, 23)] a.payload = true → fld a.payload 16 16 ≤ 4 →
    Tells (.ledgerRead a) 0x0A00 a s fun q =>
      let es := ledgerArea s (fld a.payload 16 16)
      fld q 16 16 = fld a.payload 16 16 ∧ fld q 20 23 = es.length % 2 ^ 32 ∧
      let size := ledgerEntrySize (fld a.payload 16 16)
      let n := min (es.length - fld a.payload 20 23) (4048 / size)
      fld q 24 27 = n ∧ fld q 17 19 = 0 ∧
      ∀ i < n, ∃ e, es[fld a.payload 20 23 + i]? = some e ∧ e.length = size ∧ (q.drop (16 + size * i)).take size = e) ∧
  (∀ a s, Sound s → Served 0x0A10 a s → 12 ≤ a.payload.length → fld a.payload 24 27 ≤ 999999999 →
    let u := taken 0x0A10 a (begin s)
    Becomes (.calendarSet a) s (kept s (reply 0x0A10 a replyOk (writeCalendar true
      { u with cal := { sec := fld a.payload 16 23, ns := fld a.payload 24 27, valid := true, sub := 0 } })))))

/-- R350, R351, Table CMD-9: CLK_GATE with ACTION 0 clears GATE_REQ of a node and of its ancestors; with ACTION 1 it sets GATE_REQ where every
child's is set and neither the node nor one below it has open work, and else answers REFUSED_CHILD_BUSY with DETAIL 0x0901 or 0x0902 and
changes nothing. A node that Table CLK-4 does not have answers BAD_ARG. CLK_STATUS answers each field of Table CMD-9: the sources, the
forced switches, and the slices and ports whose GATE_REQ is set. -/
def Obligations.ClockCommands : Prop :=
  (∀ a s, Sound s → Served 0x0900 a s → 4 ≤ a.payload.length →
    let level := fld a.payload 16 16
    let index := fld a.payload 17 17
    let sub := if level = 3 then fld a.payload 18 18 else 0
    let u := taken 0x0900 a (begin s)
    (gateNodeOk level index sub = false → Becomes (.clkGate a) s (answer 0x0900 a { status := stBadArg } (begin s))) ∧
    (gateNodeOk level index sub = true →
    (fld a.payload 19 19 = 0 → ∃ v, Becomes (.clkGate a) s (reply 0x0900 a replyOk v) ∧ v = { u with clk := { u.clk with gates := v.clk.gates } } ∧
      gateReq v level index sub = false ∧ (∀ x ∈ gateUp level index sub, gateReq v x.1 x.2.1 x.2.2 = false) ∧
      ∀ g, (g.level, g.index, g.sub) ∉ gateUp level index sub → (g ∈ v.clk.gates ↔ g ∈ s.clk.gates)) ∧
    (fld a.payload 19 19 = 1 → gateReq s level index sub = true → Becomes (.clkGate a) s (answer 0x0900 a replyOk (begin s))) ∧
    (fld a.payload 19 19 = 1 → gateReq s level index sub = false →
      ((∃ x ∈ gateChildren level index, gateReq s x.1 x.2.1 x.2.2 = false) →
        Becomes (.clkGate a) s (answer 0x0900 a { status := stChildBusy, detail := 0x0901 } (begin s))) ∧
      ((∀ x ∈ gateChildren level index, gateReq s x.1 x.2.1 x.2.2 = true) → gateWork s level index sub = true →
        Becomes (.clkGate a) s (answer 0x0900 a { status := stChildBusy, detail := 0x0902 } (begin s))) ∧
      ((∀ x ∈ gateChildren level index, gateReq s x.1 x.2.1 x.2.2 = true) → gateWork s level index sub = false →
        Becomes (.clkGate a) s (reply 0x0900 a replyOk
          { u with clk := { u.clk with gates := s.clk.gates ++ [{ level := level, index := index, sub := sub }] } }))))) ∧
  (∀ a s, Sound s → Served 0x0901 a s → Tells (.clkStatus a) 0x0901 a s fun q =>
    bitOf (fld q 16 16) 0 = s.clk.refQualified ∧ bitOf (fld q 16 16) 1 = s.clk.fallbackOk ∧
    bitOf (fld q 16 16) 2 = (s.clk.aon == .reference) ∧ fld q 16 16 < 8 ∧ fld q 17 17 = 0 ∧ fld q 18 19 = s.clk.forced % 2 ^ 16 ∧
    (∀ i, i < 16 → bitOf (fld q 20 21) i = gateReq s 2 i 0) ∧ fld q 22 23 = 0 ∧ MaskOf (fld q 24 27) (fun k => gateReq s 4 k 0) ∧ q.length = 12)
/-- R312, R386, R389, R390: FW_STAGE keeps a chunk that follows the last; a chunk at offset 0 begins an image anew, with the slot that is not
running invalid from then on and not the one tried first; a chunk that does not follow discards the image. With LAST the image is checked:
one that fails answers NOT_PERMITTED, with DETAIL 0x0B02 for its security version and 0x0B01 for any other check; one that passes is
programmed into the slot that is not running and answers OK, or, where the flash fails, 0x0B03: which, the spec leaves open.
R313, R391: FW_ACTIVATE of a slot that verifies records it as the slot tried first, of another it answers NOT_PERMITTED with DETAIL 0x0B04.
R313, R392: FW_ACTIVATE_LIVE of the other slot, which verifies and fits, ends the SPDM sessions, begins live activation and leaves its
command taken; each of the other cases answers its status and DETAIL. -/
def Obligations.FirmwareCommands : Prop :=
  (∀ a s, Sound s → Served 0x0B00 a s → 12 ≤ a.payload.length → unnamedZero [(16, 24), (28, 27)] a.payload = true →
    fld a.payload 20 23 ≤ 2 ^ 25 →
    let off := fld a.payload 16 19
    let total := fld a.payload 20 23
    let last := bitOf (fld a.payload 24 24) 0
    let chunk := a.payload.drop 12
    let u := taken 0x0B00 a (begin s)
    let slot := 1 - s.sec.active
    let dropped := fun (v : State) => { v with sec := { v.sec with staged := [], stagedLen := 0, stagedBad := false } }
    let image := (s.sec.staged ++ [chunk]).flatMap id
    (off = 0 → last = false → chunk.length < total → ∃ v, Becomes (.fwStage a) s (kept s (reply 0x0B00 a replyOk v)) ∧
      v.sec.staged = [chunk] ∧ v.sec.stagedLen = chunk.length ∧ slotImage v slot = none ∧ (∀ n ≤ 1, n ≠ slot → slotImage v n = slotImage s n) ∧
      (bootPref s ≠ slot → v = { u with sec := v.sec })) ∧
    (off ≠ 0 → off = s.sec.stagedLen → last = false → off + chunk.length < total →
      Becomes (.fwStage a) s (reply 0x0B00 a replyOk
        { u with sec := { u.sec with staged := s.sec.staged ++ [chunk], stagedLen := off + chunk.length } })) ∧
    (off ≠ 0 → off ≠ s.sec.stagedLen → Becomes (.fwStage a) s (reply 0x0B00 a { status := stBadArg } (dropped u))) ∧
    (off ≠ 0 → off = s.sec.stagedLen → last = true → off + chunk.length = total →
      let fails := fun (d : Nat) => Becomes (.fwStage a) s (reply 0x0B00 a { status := stNotPermitted, detail := d } { dropped u with fresh := s.fresh + 1 })
      let r := imageResult (svnMin s) (imageHeader image)
      ((s.sec.stagedBad = true ∨ (r ≠ 0 ∧ r ≠ 3)) → fails 0x0B01) ∧
      (s.sec.stagedBad = false → r = 3 → fails 0x0B02) ∧
      (s.sec.stagedBad = false → r = 0 → fails 0x0B03 ∨ Becomes (.fwStage a) s (kept s (reply 0x0B00 a replyOk
        (fwUpdateRecord (setSlot { dropped u with fresh := s.fresh + 1 } slot (some (imageHeader image))) 0 slot))))) ∧
    (off ≠ 0 → off = s.sec.stagedLen → (total < off + chunk.length ∨ last ≠ (off + chunk.length == total)) →
      Becomes (.fwStage a) s (answer 0x0B00 a { status := stBadArg } (begin s)))) ∧
  (∀ a s, Sound s → Served 0x0B01 a s → 1 ≤ a.payload.length → fld a.payload 16 16 ≤ 1 →
    let slot := fld a.payload 16 16
    (slotVerifies s slot = true → ∃ v, Becomes (.fwActivate a) s (kept s (reply 0x0B01 a replyOk v)) ∧ bootPref v = slot ∧
      v.sec = s.sec ∧ stalGet s 8 0 + 1 ≤ stalGet v 8 0) ∧
    (slotVerifies s slot = false → Becomes (.fwActivate a) s (answer 0x0B01 a { status := stNotPermitted, detail := 0x0B04 } (begin s)))) ∧
  (∀ a s, Sound s → Served 0x0B02 a s → 1 ≤ a.payload.length → fld a.payload 16 16 ≤ 1 →
    let slot := fld a.payload 16 16
    let fails := fun (st d : Nat) => Becomes (.fwActivateLive a) s (answer 0x0B02 a { status := st, detail := d } (begin s))
    (slot ≠ s.sec.active → liveFits s slot = true → s.mgmt.txn = none → s.dom.prepared = none → slotVerifies s slot = true →
      ∃ v, Becomes (.fwActivateLive a) s v ∧ v.mgmt.state = .liveActivation ∧ v.sec.sessions = [] ∧ v.mgmt.pri.resp = s.mgmt.pri.resp ∧
        v.mgmt.works = s.mgmt.works ++ [{ op := 0x0B02, cookie := a.cookie, via := a.via, arg0 := slot }]) ∧
    (slot = s.sec.active → fails stNotPermitted 0x0B05) ∧
    (slot ≠ s.sec.active → liveFits s slot = false → fails stNotPermitted 0x0B06) ∧
    (∀ t, slot ≠ s.sec.active → liveFits s slot = true → s.mgmt.txn = some t → fails stTxnOpen (b2n t.domain)) ∧
    (slot ≠ s.sec.active → liveFits s slot = true → s.mgmt.txn = none → s.dom.prepared ≠ none → fails stTxnOpen 0) ∧
    (slot ≠ s.sec.active → liveFits s slot = true → s.mgmt.txn = none → s.dom.prepared = none → slotVerifies s slot = false →
      fails stNotPermitted 0x0B04))

/-- R208, R314: DOMAIN_FORM on the primary sends FORM under a FORM_ID that the device has not issued (which one, the spec leaves open:
assumption 84) and runs on; where the device takes part in no ring it sends nothing and runs on.
R216, R217: DOMAIN_STATUS on the primary answers each field of Table CMD-10; bit d of a mask stands for the device of index d, the
primary's own from its own state. -/
def Obligations.DomainCommands : Prop :=
  (∀ a s, Sound s → Served 0x0C00 a s → isPrimary s = true →
    let u := taken 0x0C00 a (begin s)
    (onRing s = true → (∃ i, i < 65536 ∧ i ∉ s.dom.formIds) → ∃ id, id < 65536 ∧ id ∉ s.dom.formIds ∧
      Becomes (.domainForm a) s (working 0x0C00 a 0 0 0 0 []
        { u with dom := { u.dom with formId := id, formIds := s.dom.formIds ++ [id], formSent := s.clk.half, forming := true, index := some 0 },
                 fresh := s.fresh + 1, out := [ringFrame 1 0xFE 0 0 (leBytes 1 1 ++ leBytes 2 id ++ leBytes 4 0)] })) ∧
    (onRing s = false → Becomes (.domainForm a) s (working 0x0C00 a 0 0 0 0 [] u))) ∧
  (∀ a s, Sound s → Served 0x0C01 a s → isPrimary s = true → s.dom.n ≤ 64 → Tells (.domainStatus a) 0x0C01 a s fun q =>
    let mask := fun (m : Nat) (own : Bool) (of : Peer → Bool) => bitOf m 0 = own ∧
      (∀ d : Fin 64, d.val ≠ 0 → bitOf m d = (decide (d.val < s.dom.n) && of s.dom.peers[d])) ∧ m < 2 ^ 64
    fld q 16 16 = (if s.dom.down then 2 else b2n s.dom.formed) ∧ fld q 17 17 = s.dom.n % 256 ∧
    bitOf (fld q 18 18) 0 = s.dom.indexConflict ∧ bitOf (fld q 18 18) 1 = s.dom.dualPrimary ∧ fld q 18 18 < 4 ∧ fld q 19 19 = 0 ∧
    fld q 20 20 = cfgGet s keyGran 0 % 256 ∧ fld q 21 23 = 0 ∧
    mask (fld q 24 31) s.clk.homeOwn (·.ready) ∧ mask (fld q 32 39) (s.cons.contained || s.mgmt.fault) (·.faultN) ∧
    mask (fld q 40 47) s.cons.contained (·.contained) ∧ mask (fld q 48 55) false (·.diverged) ∧
    mask (fld q 56 63) s.dom.timeValid (·.timeValid) ∧ (∀ i, i < 64 → leAt q (48 + i) 1 = cfgGet s keyIt i % 256) ∧
    leAt q 112 8 = domNs s % 2 ^ 64 ∧ leAt q 120 4 = s.dom.linkDelay % 2 ^ 32 ∧ q.length = 124)
/-- R208, R209: formation. A FORM that returns to the forming primary under its FORM_ID forms the ring of N devices, and FORM_DONE goes out; one
under a FORM_ID that the primary has issued before is passed over; one of a FORM_ID that is not its own marks DUAL_PRIMARY and is
reported. A secondary whose step 10 has ended takes the index offered and forwards FORM with the next; one that holds another index refuses
it. FORM_TIMEOUT of a forming primary sends FORM again under a FORM_ID that it has not issued (which one is left open: assumption 84).
FORM_DONE gives a secondary N and LINK_DELAY and forms its ring. -/
def Obligations.RingFormation : Prop :=
  (∀ f s, onRing s = true → frameGood 1 f = true → isPrimary s = true → s.dom.forming = true → leAt f.payload 1 2 = s.dom.formId →
    ∃ t, exec (.form f) s = .next t ∧ t.dom.n = leAt f.payload 0 1 ∧ t.dom.formed = true ∧ t.dom.down = false ∧ t.dom.forming = false ∧
      t.dom.timeValid = true ∧ t.dom.dualPrimary = false ∧
      t.dom.linkDelay = ((s.clk.half - s.dom.formSent) * 8 - leAt f.payload 3 4) / max 1 (leAt f.payload 0 1) ∧
      ringFrame 2 0xFF (s.dom.index.getD 0xFE) 0 (leBytes 1 (leAt f.payload 0 1) ++ leBytes 2 s.dom.formId ++ leBytes 4 t.dom.linkDelay) ∈ t.out) ∧
  (∀ f s, Sound s → onRing s = true → frameGood 1 f = true → isPrimary s = true →
    ¬ (s.dom.forming = true ∧ leAt f.payload 1 2 = s.dom.formId) →
    (leAt f.payload 1 2 ∈ s.dom.formIds → Becomes (.form f) s (begin s)) ∧
    (leAt f.payload 1 2 ∉ s.dom.formIds → Becomes (.form f) s { begin s with dom := { s.dom with dualPrimary := true } } ∧
      Notes (.form f) s { ntype := 7, arg := 4 + (s.dom.n % 64) * 2 ^ 8 })) ∧
  (∀ f s, Sound s → onRing s = true → frameGood 1 f = true → isPrimary s = false → 10 ∈ s.clk.stepDone → leAt f.payload 0 1 < 64 →
    let next := leAt f.payload 0 1
    let id := leAt f.payload 1 2
    ((s.dom.index = none ∨ s.dom.index = some next) → ∃ own,
      Becomes (.form f) s { begin s with
        dom := { s.dom with index := some next, formId := id }, fresh := s.fresh + 1,
        out := [ringFrame 1 f.dst f.src ((f.hops + 1) % 256) (leBytes 1 (next + 1) ++ leBytes 2 id ++ leBytes 4 (leAt f.payload 3 4 + own))] } ∧
      (f.payload.length + 12) * 64 ≤ own ∧ own ≤ (f.payload.length + 12) * 64 + 768) ∧
    (∀ i, s.dom.index = some i → i ≠ next → Becomes (.form f) s { begin s with dom := { s.dom with indexConflict := true } })) ∧
  (∀ s, onRing s = true → isPrimary s = true → s.dom.forming = true → (∃ i, i < 65536 ∧ i ∉ s.dom.formIds) →
    ∃ t, exec .formTimeout s = .next t ∧ t.dom.formId ∉ s.dom.formIds ∧ t.dom.formId < 65536 ∧ t.dom.formIds = s.dom.formIds ++ [t.dom.formId] ∧
      t.dom.forming = true ∧ t.dom.index = some 0 ∧ ringFrame 1 0xFE 0 0 (leBytes 1 1 ++ leBytes 2 t.dom.formId ++ leBytes 4 0) ∈ t.out) ∧
  (∀ f s, Arrives 2 f s → isPrimary s = false → leAt f.payload 1 2 = s.dom.formId → s.dom.index ≠ none → f.dst = 0xFF →
    ∃ t, exec (.formDone f) s = .next t ∧ t.dom.n = leAt f.payload 0 1 ∧ t.dom.linkDelay = leAt f.payload 3 4 ∧ t.dom.formed = true ∧
      t.dom.down = false ∧ t.dom.indexConflict = false)

/-- R207, R211: domain time. The primary of a formed ring broadcasts TIME_SYNC; a secondary that is more than 1 us behind steps forward to
the primary's time, one more than 1 us ahead runs at half rate for the difference, and one within 1 us slews. DOMAIN_TIME_INVALID
marks domain time invalid while the ring is down, and has no effect otherwise.
R207, R217: a STATE frame gives the primary its view of a secondary; a FAULT frame is logged as REMOTE_FAULT with its severity and
forwarded; a secondary with an index sends its state. A frame of one of these types whose CRC fails is counted and discarded. -/
def Obligations.TimeStateAndFaultFrames : Prop :=
  ((∀ f s, Arrives 3 f s → isPrimary s = false → s.dom.formed = true → s.dom.timeRun = true →
    let v := 2 * leAt f.payload 0 8 + (leAt f.payload 8 4 + ownIndex s * s.dom.linkDelay) / 8
    ∃ t, exec (.timeSync f) s = .next t ∧ t.dom.timeValid = true ∧
      (s.dom.time + 2000 < v → t.dom.time = v ∧ t.dom.halfRate = 0 ∧ t.dom.slew = 0) ∧
      (v + 2000 < s.dom.time → t.dom.time = s.dom.time ∧ t.dom.halfRate = s.dom.time - v ∧ t.dom.slew = 0) ∧
      (v ≤ s.dom.time + 2000 → s.dom.time ≤ v + 2000 → t.dom.time = s.dom.time ∧ t.dom.halfRate = 0 ∧ t.dom.slew = (v : Int) - s.dom.time)) ∧
  (∀ s, Sound s → onRing s = true → isPrimary s = true → s.dom.formed = true →
    Becomes .timeSyncSend s { begin s with
      out := [ringFrame 3 0xFF (s.dom.index.getD 0xFE) 0 (leBytes 8 (domNs s) ++ leBytes 4 0 ++ leBytes 4 s.dom.linkDelay)] }) ∧
  (∀ s, Sound s → Becomes .domainTimeInvalid s
    { begin s with dom := { s.dom with timeValid := if s.dom.down then false else s.dom.timeValid } })) ∧
  ((∀ f s (d : Fin 64), Sound s → Arrives 4 f s → isPrimary s = true → s.dom.index = some f.dst → f.dst ≠ 0xFF → f.src = d.val →
    let b := leAt f.payload 0 1
    let x : Peer := { s.dom.peers[d] with ready := bitOf b 0, faultN := bitOf b 1, contained := bitOf b 2, timeValid := bitOf b 3 }
    Becomes (.stateFrame f) s { begin s with dom := { s.dom with peers := s.dom.peers.set d x } }) ∧
  (∀ s, Sound s → onRing s = true → isPrimary s = false → s.dom.index ≠ none →
    Becomes .stateSend s { begin s with out := [ringFrame 4 0 (s.dom.index.getD 0xFE) 0 (leBytes 1
      (b2n s.clk.homeOwn + 2 * b2n (s.cons.contained || s.mgmt.fault) + 4 * b2n s.cons.contained + 8 * b2n s.dom.timeValid))] }) ∧
  (∀ f s, Arrives 5 f s → f.dst = 0xFF →
    ∃ t, exec (.faultFrame f) s = .next t ∧ ringFrame 5 0xFF f.src ((f.hops + 1) % 256) f.payload ∈ t.out ∧
      t.prot = (logError (begin s) { cls := 0x41, severity := leAt f.payload 0 1, srcKind := 5, src := f.src, detail := leAt f.payload 1 4 }).prot) ∧
  (∀ s (r : LogRec), s.prot.log = [] → ∃ x, (logError s r).prot.log = [x] ∧ x.cls = r.cls ∧ x.severity = r.severity ∧ x.srcKind = r.srcKind ∧
    x.src = r.src ∧ x.detail = r.detail ∧ x.addr = r.addr ∧ x.seq = s.prot.nextSeq ∧ (logError s r).prot.nextSeq = s.prot.nextSeq + 1) ∧
  (∀ f s, Sound s → onRing s = true →
    let counted := { begin s with dom := { s.dom with ringCrc := s.dom.ringCrc + 1 } }
    (frameGood 3 f = false → Becomes (.timeSync f) s counted) ∧ (frameGood 4 f = false → Becomes (.stateFrame f) s counted) ∧
    (frameGood 5 f = false → Becomes (.faultFrame f) s counted)))

/-- R215, R279, R210: the fragments of a relayed response complete the doorbell, and those of a relayed command run it; a relay that times
out answers DOMAIN_UNREACHABLE; a secondary's note joins the primary's events, and the losses it reports, with the gap in NOTE_SEQ, are
added to NQ_LOST, which saturates. A ring that goes down is recorded; its primary then ends the relay that goes on, notifies the host and
begins formation. -/
def Obligations.RelaysNotesAndRingDown : Prop :=
  (∀ f s r, Sound s → Arrives 0x11 f s → s.dom.index = some f.dst → f.dst ≠ 0xFF → s.dom.relay = some r → leAt f.payload 0 2 = r.id →
    f.src = r.target → leAt f.payload 2 2 = r.got.length →
    let got := r.got ++ f.payload.drop 8
    (bitOf (leAt f.payload 6 1) 0 = true →
      Becomes (.relayRsp f) s (respondPrimary { begin s with dom := { s.dom with relay := none } } got (leAt got 2 1))) ∧
    (bitOf (leAt f.payload 6 1) 0 = false →
      Becomes (.relayRsp f) s { begin s with dom := { s.dom with relay := some { r with got := got } } })) ∧
  (∀ f s, Sound s → Arrives 0x10 f s → s.dom.index = some f.dst → f.dst ≠ 0xFF → isPrimary s = false → leAt f.payload 2 2 = 0 →
    (bitOf (leAt f.payload 6 1) 0 = false →
      Becomes (.relayCmd f) s { begin s with dom := { s.dom with relayIn := f.payload.drop 8, relayInId := leAt f.payload 0 2 } }) ∧
    (bitOf (leAt f.payload 6 1) 0 = true →
      let x := areaOf .relay (f.payload.drop 8)
      Becomes (.relayCmd f) s (kept s (takeCommand (ctxOf x.1 x.2 (leAt f.payload 0 2)) x.2 (handlerOf x.1)
        { begin s with dom := { s.dom with relayIn := [] } })))) ∧
  (∀ s r, Sound s → isPrimary s = true → s.dom.relay = some r →
    Becomes .relayTimeout s (respond { begin s with dom := { s.dom with relay := none } } .primary r.op r.cookie 0 (ownIndex s)
      { status := stUnreachable })) ∧
  (∀ s, Sound s → isPrimary s = false → Becomes .relayTimeout s { begin s with dom := { s.dom with relayIn := [] } }) ∧
  (∀ f s, Arrives 0x12 f s → s.dom.index = some f.dst → f.dst ≠ 0xFF → isPrimary s = true →
    let w0 := leAt f.payload 8 8
    let gap := (leAt f.payload 0 2 + 65536 - (peerOf s f.src).noteSeq) % 65536
    ∃ t, exec (.relayNote f) s = .next t ∧
      let x := if 2 ≤ leAt f.payload 6 1 then some (bits (leAt f.payload 16 8) 61 0) else none
      let e : Event := { ntype := bits w0 7 0, arg := bits w0 61 32, word := x }
      (s.mgmt.intake.length < 256 → e ∈ t.mgmt.intake) ∧
      min (s.mgmt.nqLost + leAt f.payload 2 4 + gap) (2 ^ 32 - 1) ≤ t.mgmt.nqLost ∧
      (f.src < 64 → (peerOf t f.src).noteSeq = (leAt f.payload 0 2 + 1) % 65536)) ∧
  (∀ s, onRing s = true → s.dom.formed = true → s.dom.down = false →
    ∃ t r, exec .ringDown s = .next t ∧ t.dom.down = true ∧ r ∈ t.prot.log ∧ r.cls = 0x40 ∧ r.srcKind = 5 ∧
      (isPrimary s = true → t.dom.relay = none ∧ t.dom.forming = true ∧
        (s.mgmt.intake.length < 255 → { ntype := 7, arg := 1 + (s.dom.n % 64) * 2 ^ 8 } ∈ t.mgmt.intake)))
/-- R200: the mailbox of a CXL host's port answers its commands that report, and nothing else of the device changes. The payload layouts
and return codes are the model's choice (PRESUMED, assumption 40); what they report is the spec's.
R200: CLEAR_EVENT_RECORDS of all records empties a log, of handles it removes the oldest records whose handles they are;
SET_EVENT_INTERRUPT_POLICY and SET_TIMESTAMP set what the port holds, and nothing else of the device changes. The layouts are PRESUMED
(assumption 40). -/
def Obligations.CxlMailboxCommands : Prop :=
  (∀ (p : Fin 24) s, Sound s → isCxlPeer s p = true →
    let tells := fun (code : Nat) (bs : List Byte) => ({ begin s with out := [.cxlMailbox p code bs] } : State)
    (∀ bs, bs.length = 1 → leAt bs 0 1 ≤ 3 → ∃ q, Becomes (.getEventRecords p bs) s (tells 0 q) ∧
      leAt q 20 2 = (evLog (s.port p).cxl (leAt bs 0 1)).length % 2 ^ 16 ∧ q.length = 32 + 128 * (evLog (s.port p).cxl (leAt bs 0 1)).length ∧
      (leAt bs 0 1 = 2 → leAt q 2 2 = min (s.port p).cxl.evLost.1 65535)) ∧
    (∀ bs, bs.length = 1 → 3 < leAt bs 0 1 → Becomes (.getEventRecords p bs) s (tells 2 [])) ∧
    (∀ bs, bs.length = 0 →
      Becomes (.getEventInterruptPolicy p bs) s (tells 0 ((s.port p).cxl.evPolicy.map (BitVec.ofNat 8))) ∧
      (∃ q, Becomes (.getFwInfo p bs) s (tells 0 q) ∧ leAt q 16 16 = slotVersion s 0 % 256 ^ 16 ∧ leAt q 32 16 = slotVersion s 1 % 256 ^ 16) ∧
      Becomes (.getTimestamp p bs) s (tells 0 (leBytes 8 ((s.port p).cxl.timestamp + (nowNs s - (s.port p).cxl.tsSetAt)))) ∧
      (∃ q, Becomes (.getSupportedLogs p bs) s (tells 0 q) ∧ leAt q 0 2 = 1 ∧ (q.drop 8).take 16 = celUuid) ∧
      (∃ q, Becomes (.identifyMemoryDevice p bs) s (tells 0 q) ∧ leAt q 16 8 = dvsecSize s p / 2 ^ 28 % 2 ^ 64 ∧
        leAt q 24 8 = dvsecSize s p / 2 ^ 28 % 2 ^ 64 ∧ leAt q 32 8 = 0) ∧
      (∃ q, Becomes (.getPartitionInfo p bs) s (tells 0 q) ∧ leAt q 0 8 = dvsecSize s p / 2 ^ 28 % 2 ^ 64 ∧ leAt q 8 8 = 0) ∧
      (∃ q, Becomes (.getHealthInfo p bs) s (tells 0 q) ∧ leAt q 3 1 = lifeUsed s % 256 ∧ q.length = 18)) ∧
    (∀ bs, bs.length = 24 → bs.take 16 = celUuid → leAt bs 16 4 + leAt bs 20 4 ≤ celLog.length →
      Becomes (.getLog p bs) s (tells 0 ((celLog.drop (leAt bs 16 4)).take (leAt bs 20 4)))) ∧
    (∀ op bs, Becomes (.cxlUnsupportedOpcode p op bs) s (tells 3 []))) ∧
  (∀ (p : Fin 24) s, Sound s → isCxlPeer s p = true →
    let after := fun (f : PortCxl → PortCxl) (code : Nat) => ({ (begin s).updPort p fun x => { x with cxl := f x.cxl } with out := [.cxlMailbox p code []] } : State)
    (∀ bs, 6 ≤ bs.length → leAt bs 0 1 ≤ 3 → leAt bs 0 1 ≠ 2 → bitOf (leAt bs 1 1) 0 = true →
      Becomes (.clearEventRecords p bs) s (after (fun c => setEvLog c (leAt bs 0 1) []) 0)) ∧
    (∀ bs, 6 ≤ bs.length → leAt bs 0 1 ≤ 3 → leAt bs 0 1 ≠ 2 → bitOf (leAt bs 1 1) 0 = false → leAt bs 2 1 = 1 → ∀ e l,
      evLog (s.port p).cxl (leAt bs 0 1) = e :: l → leAt bs 6 2 = e.handle % 65536 →
      Becomes (.clearEventRecords p bs) s (after (fun c => setEvLog c (leAt bs 0 1) l) 0)) ∧
    (∀ bs, bs.length = 4 → (∀ b ∈ bs, b.toNat % 4 ≤ 1) →
      Becomes (.setEventInterruptPolicy p bs) s (after (fun c => { c with evPolicy := bs.map fun b => b.toNat }) 0)) ∧
    (∀ bs, bs.length = 8 → Becomes (.setTimestamp p bs) s (after (fun c => { c with timestamp := leAt bs 0 8, tsSetAt := nowNs s }) 0)))

/-- R191, R192, R194, R195, R201 to R203, R395: CXL ports. Mem_Enable set binds the agent that the binding table gives the port, when the
link-up has no binding yet and the binding is accepted; cleared, it is held clear. The commit of a decoder that is not locked locks it when
the decoders before it are committed, it is 1-way without a skip, and its range fits the DPA space, which the commit of decoder 0 joins;
otherwise it reports an error. A CXL reset unlocks the decoders. Credits that a partner returns are added to those held, on a CXL peer port
of S2M classes and on a MEM_CXL port of M2S classes. IDE_KM in a session of the port's own DOE programs the key of a stream and direction.
An expander that serves is enumerated: its decoder is committed, Mem_Enable set, its chain digest recorded, keys programmed where it offers
IDE, and it is offered to the pool; one that reports HDM-DB, has less than 1 GiB or fails the commit is refused. The media errors that an
expander reports are logged. -/
def Obligations.CxlPortCommands : Prop :=
  (∀ (p : Fin 24) s on, isCxlPeer s p = true → Sound s →
    let u := (cxlLinkUp (begin s) p).updPort p fun x => { x with cxl := { x.cxl with memEnable := on } }
    (∀ a, on = true → (u.port p).cxl.bound = none → cxlAgent u p = some a →
      Becomes (.cxlMemEnable p on) s (kept s ((u.updBind a fun b => { b with status := .active, failed := false }).updPort p fun x =>
        { x with cxl := { x.cxl with bound := some a } }))) ∧
    ((on = false ∨ (u.port p).cxl.bound ≠ none ∨ cxlAgent u p = none) → Becomes (.cxlMemEnable p on) s (kept s u))) ∧
  (∀ (p : Fin 24) s (n : Fin 4) base size ways skip, Sound s → isCxlPeer s p = true →
    let c := (s.port p).cxl
    let space := if n.val = 0 then (match c.bound with | some a => dpaJoin s a | none => []) else c.layout.getD []
    let before := c.decoders.toList.take n.val
    let good := ways = 0 ∧ skip = 0 ∧ (∀ d ∈ before, d.committed = true) ∧ (before.map (·.size)).sum + size ≤ dpaSize space
    (c.decoders[n].committed = true → Becomes (.hdmDecoderCommit p n base size ways skip) s (begin s)) ∧
    (c.decoders[n].committed = false → good → Becomes (.hdmDecoderCommit p n base size ways skip) s ((begin s).updPort p fun x =>
      { x with cxl := { x.cxl with decoders := x.cxl.decoders.set n { base := base, size := size, committed := true },
                                   layout := if n.val = 0 then some space else x.cxl.layout } })) ∧
    (c.decoders[n].committed = false → ¬ good → Becomes (.hdmDecoderCommit p n base size ways skip) s ((begin s).updPort p fun x =>
      { x with cxl := { x.cxl with decoders := x.cxl.decoders.set n { base := base, size := size, error := true } } }))) ∧
  (∀ (p : Fin 24) s, Sound s → isCxlPeer s p = true →
    Becomes (.cxlReset p) s ((begin s).updPort p fun x => { x with cxl := { x.cxl with decoders := Vector.replicate 4 {}, layout := none } })) ∧
  (∀ (p : Fin 24) s ndr drs bi, Sound s → (s.port p).cxl.up = true →
    let give := fun (c : CxlCredit) (n : Nat) => ({ c with avail := c.avail + n, ret := c.ret + n, shRet := c.shRet + n } : CxlCredit)
    (isCxlPeer s p = true → (s.port p).cxl.conflicts = [] → (s.port p).tx.snpQ = [] → (s.port p).tx.packed = [] →
      Becomes (.cxlCreditReturn p ndr drs bi) s ((begin s).updPort p fun x => { x with cxl := { x.cxl with
        s2mNdr := give x.cxl.s2mNdr ndr, s2mDrs := give x.cxl.s2mDrs drs, s2mBiSnp := give x.cxl.s2mBiSnp bi } })) ∧
    (personality s p = .memCxl → Becomes (.cxlCreditReturn p ndr drs bi) s ((begin s).updPort p fun x => { x with cxl := { x.cxl with
      m2sReq := give x.cxl.m2sReq ndr, m2sRwd := give x.cxl.m2sRwd drs, m2sBiRsp := give x.cxl.m2sBiRsp bi } }))) ∧
  (∀ (p : Fin 24) s session stream receive key x, Sound s → personality s p = .peerCxl3 → sessionOf s session = some x → x.inst = 2 + p.val → stream < 2 →
    Becomes (.ideKm p session stream receive key) s ((begin s).updPort p fun y => { y with cxl := { y.cxl with
      ideKeys := (y.cxl.ideKeys.filter fun e => !(e.1 == stream && e.2.1 == b2n receive)) ++ [(stream, b2n receive, key)] } })) ∧
  (∀ (p : Fin 24) s d, personality s p = .memCxl →
    let gib := d.capacity / 2 ^ 30
    (d.hdmDb = false → 1 ≤ gib → d.commits = true → ∃ v,
      Becomes (.expanderEnumeration p d) s (kept s (settleAll (offerModule v p { mode := 1, capGiB := gib, maker := d.maker, product := d.product }).1)) ∧
      (v.port p).cxl.up = true ∧ (v.port p).cxl.memEnable = true ∧ (v.port p).mem.chainDigest = d.digest ∧
      (v.port p).cxl.decoders[(0 : Fin 4)] = { base := 0, size := gib * 2 ^ 30, committed := true } ∧
      (v.port p).cxl.ideKeys.map (fun e => (e.1, e.2.1)) = (if d.ide then [(0, 0), (0, 1), (1, 0), (1, 1)] else [])) ∧
    ((d.hdmDb = true ∨ gib = 0 ∨ d.commits = false) → ∃ v, Becomes (.expanderEnumeration p d) s (kept s (refuseExpander v p)) ∧
      (v.port p).cxl.memEnable = false)) ∧
  (∀ (p : Fin 24) s rs, personality s p = .memCxl → (s.port p).cxl.up = true → Becomes (.expanderEventPoll p rs) s
    (kept s (rs.foldl (fun s r => logClass s (if r.1 = 0 then 0x01 else 0x02) 1 p (some (3, r.2))) (begin s))))

/-- R381 to R383, Tables LED-6, LED-7: SPDM requests that report. GET_VERSION answers 1.2 and 1.3 and connects its transport anew;
GET_CAPABILITIES and NEGOTIATE_ALGORITHMS answer once it is connected, GET_DIGESTS, GET_CERTIFICATE, CHALLENGE and GET_MEASUREMENTS once it
has negotiated algorithms, and each answers an ERROR before; a slot other than 0, an offset beyond the chain, an index that Table LED-7
does not have, or algorithms that hold none of the device's answer an ERROR too. The numbers of the responses are those of DSP0274 (PRESUMED, assumption 14), the device's
nonce is a free value (assumption 3). -/
def Obligations.SpdmReports : Prop :=
  ∀ inst s, Sound s → spdmUp s inst = true →
    let rsp := fun (code p1 p2 : Nat) (bs : List Byte) => leBytes 1 code ++ leBytes 1 p1 ++ leBytes 1 p2 ++ bs
    Becomes (.getVersion inst) s (spdmSend inst (rsp 0x04 0 0 (leBytes 1 0 ++ leBytes 1 2 ++ leBytes 2 0x1200 ++ leBytes 2 0x1300))
      { begin s with sec := { s.sec with
        connected := s.sec.connected.filter (· != inst) ++ [inst], negotiated := s.sec.negotiated.filter (· != inst) } }) ∧
    (inst ∈ s.sec.connected →
      Becomes (.getCapabilities inst) s (spdmSend inst (rsp 0x61 0 0 (leBytes 4 0x2D6)) (begin s)) ∧
      (∃ q, Becomes (.negotiateAlgorithms inst true) s (spdmSend inst (rsp 0x63 0 0 q)
        { begin s with sec := { s.sec with negotiated := s.sec.negotiated.filter (· != inst) ++ [inst] } })) ∧
      Becomes (.negotiateAlgorithms inst false) s (spdmSend inst (rsp 0x7F 1 0 []) (begin s))) ∧
    (inst ∉ s.sec.connected →
      Becomes (.getCapabilities inst) s (spdmSend inst (rsp 0x7F 4 0 []) (begin s)) ∧
      ∀ sm, Becomes (.negotiateAlgorithms inst sm) s (spdmSend inst (rsp 0x7F 4 0 []) (begin s))) ∧
    (inst ∈ s.sec.negotiated →
      Becomes (.getDigests inst) s (spdmSend inst (rsp 0x01 0 1 (Config.sm3 (chain s))) (begin s)) ∧
      (∀ off len, off < (chain s).length → len < 2 ^ 16 → let part := ((chain s).drop off).take len
        Becomes (.getCertificate inst 0 off len) s (spdmSend inst
          (rsp 0x02 0 0 (leBytes 2 part.length ++ leBytes 2 ((chain s).length - off - part.length) ++ part)) (begin s))) ∧
      (∀ slot off len, (slot ≠ 0 ∨ (chain s).length ≤ off) → Becomes (.getCertificate inst slot off len) s (spdmSend inst (rsp 0x7F 1 0 []) (begin s))) ∧
      (∀ nonce, ∃ n, Becomes (.challenge inst 0 nonce) s (spdmSend inst
        (rsp 0x03 0 1 (Config.sm3 (chain s) ++ (leBytes 32 n ++ Config.sm2Sign (leBytes 32 nonce ++ Config.sm3 (chain s) ++ leBytes 32 n))))
        { begin s with fresh := s.fresh + 1 })) ∧
      (∀ slot nonce, slot ≠ 0 → Becomes (.challenge inst slot nonce) s (spdmSend inst (rsp 0x7F 1 0 []) (begin s))) ∧
      (∀ i nonce, let is := if i = 0xFF then measurementIndices else if i = 0 then [] else [i]
        let record := is.flatMap (measurementBlock s)
        let body := leBytes 1 is.length ++ leBytes 3 record.length ++ record
        let total := if i = 0 then 29 else 0
        ((∀ j ∈ is, (measurement s j).isSome = true) →
          Becomes (.getMeasurements inst i false nonce) s (spdmSend inst (rsp 0x60 total 0 (body ++ [])) (begin s)) ∧
          ∃ n, Becomes (.getMeasurements inst i true nonce) s (spdmSend inst
            (rsp 0x60 total 0 (body ++ (leBytes 32 n ++ Config.sm2Sign (leBytes 32 nonce ++ body ++ leBytes 32 n)))) { begin s with fresh := s.fresh + 1 })) ∧
        ((∃ j ∈ is, measurement s j = none) → ∀ signed,
          Becomes (.getMeasurements inst i signed nonce) s (spdmSend inst (rsp 0x7F 1 0 []) (begin s)))) ∧
      (∀ i t v, measurement s i = some (t, v) →
        measurementBlock s i = leBytes 1 i ++ leBytes 1 1 ++ leBytes 2 (v.length + 3) ++ leBytes 1 t ++ leBytes 2 v.length ++ v) ∧
      (∀ im, s.sec.running = some im → measurement s 2 = some (1, Config.fwDigest im.version im.svn) ∧
        measurement s 3 = some (0x87, leBytes 4 im.version) ∧ measurement s 4 = some (0x88, leBytes 4 im.svn)) ∧
      measurement s 1 = some (0, Config.romDigest) ∧ measurement s 5 = some (3, s.mgmt.digest) ∧
      ∀ k : Fin 24, measurement s (0x40 + k.val) = some (2, padTo 32 (s.port k).mem.chainDigest)) ∧
    (inst ∉ s.sec.negotiated →
      Becomes (.getDigests inst) s (spdmSend inst (rsp 0x7F 4 0 []) (begin s)) ∧
      (∀ slot off len, Becomes (.getCertificate inst slot off len) s (spdmSend inst (rsp 0x7F 4 0 []) (begin s))) ∧
      (∀ slot nonce, Becomes (.challenge inst slot nonce) s (spdmSend inst (rsp 0x7F 4 0 []) (begin s))) ∧
      ∀ i signed nonce, Becomes (.getMeasurements inst i signed nonce) s (spdmSend inst (rsp 0x7F 4 0 []) (begin s)))

/-- R382: SPDM sessions, on an instance that has negotiated algorithms. KEY_EXCHANGE of slot 0 begins a session where the instance holds fewer
than 4, FINISH establishes it, END_SESSION of an established session ends it; another slot, a fifth session, a session that is not there
or not in that stage, or an instance that has not negotiated answers an ERROR, and so does a request the device does not support. -/
def Obligations.SpdmSessions : Prop :=
  ∀ inst s, Sound s → spdmUp s inst = true →
    let rsp := fun (code p1 p2 : Nat) (bs : List Byte) => leBytes 1 code ++ leBytes 1 p1 ++ leBytes 1 p2 ++ bs
    (∀ code, Becomes (.spdmUnsupportedRequest inst code) s (spdmSend inst (rsp 0x7F 7 code []) (begin s))) ∧
    (inst ∈ s.sec.negotiated →
      (∀ exch, s.sec.sessions.countP (·.inst == inst) < 4 → ∃ q, Becomes (.keyExchange inst 0 exch) s (spdmSend inst (rsp 0x64 0 0 q)
        { begin s with
          fresh := s.fresh + 1,
          sec := { s.sec with sessions := s.sec.sessions ++ [{ id := s.sec.nextSession, inst := inst }], nextSession := s.sec.nextSession + 1 } }) ∧
        leAt q 0 4 = s.sec.nextSession % 2 ^ 32) ∧
      (∀ exch, 4 ≤ s.sec.sessions.countP (·.inst == inst) → Becomes (.keyExchange inst 0 exch) s (spdmSend inst (rsp 0x7F 0x0A 0 []) (begin s))) ∧
      (∀ slot exch, slot ≠ 0 → Becomes (.keyExchange inst slot exch) s (spdmSend inst (rsp 0x7F 1 0 []) (begin s))) ∧
      (∀ id x, sessionAt s inst id = some x → x.established = true → Becomes (.finish inst id) s (spdmSend inst (rsp 0x7F 4 0 []) (begin s))) ∧
      (∀ id x, sessionAt s inst id = some x → x.established = false → Becomes (.endSession inst id) s (spdmSend inst (rsp 0x7F 4 0 []) (begin s))) ∧
      (∀ id x, sessionAt s inst id = some x → x.established = false →
        Becomes (.finish inst id) s (spdmSend inst (rsp 0x65 0 0 []) { begin s with sec := { s.sec with
          sessions := s.sec.sessions.map fun y => if y = x then { y with established := true } else y } })) ∧
      (∀ id x, sessionAt s inst id = some x → x.established = true →
        Becomes (.endSession inst id) s (spdmSend inst (rsp 0x6C 0 0 []) { begin s with sec := { s.sec with
          sessions := s.sec.sessions.filter fun y => !(y.id == id && y.inst == inst) } })) ∧
      (∀ id, sessionAt s inst id = none →
        Becomes (.finish inst id) s (spdmSend inst (rsp 0x7F 4 0 []) (begin s)) ∧
        Becomes (.endSession inst id) s (spdmSend inst (rsp 0x7F 4 0 []) (begin s)))) ∧
    (inst ∉ s.sec.negotiated → ∀ slot exch id,
      Becomes (.keyExchange inst slot exch) s (spdmSend inst (rsp 0x7F 4 0 []) (begin s)) ∧
      Becomes (.finish inst id) s (spdmSend inst (rsp 0x7F 4 0 []) (begin s)) ∧
      Becomes (.endSession inst id) s (spdmSend inst (rsp 0x7F 4 0 []) (begin s)))

/-- R406, R407: MCTP control messages and SMBus ARP are answered without Spindle, whatever its state, while no reset holds. The completion
codes and the layouts are those of DSP0236 (PRESUMED, assumption 15); the version entry is a free value.
R408, R409: JTAG. While RESET_N is asserted the TAP runs its instructions: EXTEST drives the pins from the boundary register, SAMPLE/PRELOAD
loads it, IDCODE shifts out the identity, every other opcode the bypass bit; while RESET_N is deasserted nothing moves. -/
def Obligations.SidebandAndJtag : Prop :=
  (∀ s, Sound s → s.clk.reset = none →
    let tells := fun (bs : List Byte) (u : State) => ({ u with out := [.mctp bs] } : State)
    (∀ eid, 1 ≤ eid → eid ≤ 254 → Becomes (.setEndpointId eid) s
      (tells (leBytes 1 0 ++ (leBytes 1 0 ++ leBytes 1 eid ++ leBytes 1 0)) { begin s with hst := { s.hst with eid := eid } })) ∧
    (∀ eid, eid = 0 ∨ 255 ≤ eid → Becomes (.setEndpointId eid) s (tells (leBytes 1 2 ++ []) (begin s))) ∧
    Becomes .getEndpointId s (tells (leBytes 1 0 ++ (leBytes 1 s.hst.eid ++ leBytes 2 0)) (begin s)) ∧
    Becomes .getEndpointUuid s (tells (leBytes 1 0 ++ padTo 16 (Config.uuid s.fuses.serial)) (begin s)) ∧
    (∃ v, Becomes .getMctpVersionSupport s (tells (leBytes 1 0 ++ (leBytes 1 1 ++ leBytes 4 v)) { begin s with fresh := s.fresh + 1 })) ∧
    Becomes .getMessageTypeSupport s (tells (leBytes 1 0 ++ [4, 0x00, 0x05, 0x06, 0x7E]) (begin s)) ∧
    (∀ udid addr, udidOurs s udid = true → Becomes (.smbusArp udid addr) s { begin s with hst := { s.hst with smbAddr := addr % 128 } }) ∧
    (∀ udid addr, udidOurs s udid = false → Becomes (.smbusArp udid addr) s (begin s))) ∧
  ((∀ s, Sound s → s.clk.resetN = false →
    let tap := fun (ir : BitVec 4) (o : List Output) => ({ begin s with hst := { s.hst with tapIr := ir }, out := o } : State)
    (∀ pins, Becomes (.jtagExtest pins) s (tap 0 [.pins s.hst.boundary, .tdo pins])) ∧
    (∀ pins pre, Becomes (.jtagSamplePreload pins pre) s { begin s with hst := { s.hst with tapIr := 1, boundary := pre }, out := [.tdo pins] }) ∧
    Becomes .jtagIdcode s (tap 2 [.tdo ((List.range 32).map fun i => bitOf ((s.fuses.stepping % 16) * 2 ^ 28 + 0x6424 * 2 ^ 12 + 0x3A5 * 2 + 1) i)]) ∧
    (∀ ir : BitVec 4, 3 ≤ ir.toNat → Becomes (.jtagBypass ir) s (tap ir [.tdo [false]]))) ∧
  (∀ s, Sound s → s.clk.resetN = true → ∀ pins pre (ir : BitVec 4),
    Becomes (.jtagExtest pins) s (begin s) ∧ Becomes (.jtagSamplePreload pins pre) s (begin s) ∧ Becomes .jtagIdcode s (begin s) ∧
    Becomes (.jtagBypass ir) s (begin s)))

/-! ## The block as a machine -/

/-- The command at the front of the queue runs on the state with the queue's rest. On an empty queue the block idles: one core cycle
passes (log entry 6). -/
def Obligations.StepRunsTheFrontCommand : Prop :=
  (∀ c rest (s : State), step { s with pending := c :: rest } = exec c { s with pending := rest }) ∧
  (∀ s, s.pending = [] → ∃ t, step s = .next t ∧ t.pending = [] ∧ t.clk.half = s.clk.half + 1 ∧
    (s.clk.reset = none → t.obs.cycles = s.obs.cycles + 1))

/-- Every command answers a next state, and the queue is not the command's: no command of the block stops it. -/
def Obligations.EveryCommandAnswers : Prop :=
  ∀ c s, ∃ t, exec c s = .next t ∧ t.pending = s.pending

/-- R264, R273, R280, R347, R373: the state of reset is sound: its saturating counters are in range and its monotonic counters well kept.
R273, R270, R265, R352, R395: after reset both mailboxes are IDLE, no notification waits, firmware has not reported ready, containment does not
hold, every configuration key has its default, no entry of a home slice, binding or directory is in use, and the queue is empty. -/
def Obligations.ResetValuesAreSound : Prop :=
  (Sound State.reset) ∧
  (State.reset.pending = [] ∧ State.reset.mgmt.pri.state = .idle ∧ State.reset.mgmt.sec.state = .idle ∧ State.reset.mgmt.pri.ringIgnored = 0 ∧
  State.reset.mgmt.nq = [] ∧ State.reset.mgmt.state = .notReady ∧ State.reset.cons.contained = false ∧
  (∀ key index, cfgGet State.reset key index = keyDefault key index) ∧
  (∀ k : Fin 16, State.reset.slices[k] = {}) ∧
  (∀ a : Fin 256, (State.reset.binds[a]).status = BindStatus.idle) ∧ State.reset.pool.fxs = [] ∧ freeExtents State.reset = 0 ∧
  State.reset.clk.homeOwn = false ∧ State.reset.led.mounted = false)

/-- R273, R280, R347, R373: every step keeps a sound state sound: RING_IGNORED stays within 255, NQ_LOST within 2^32 - 1, the forced
switches within 65,535, the later faults within 255 (log entry 48), and every monotonic counter is listed once and is at least what
the ledger holds of it. -/
def Obligations.EveryStepKeepsSound : Prop :=
  ∀ s t, Sound s → step s = .next t → Sound t

/-- R265, R269, R352: containment, its first fault code and SALVAGE_OK stay through every step, whatever its command, unless a reset of
the core begins in it; then every home slice, binding, key and transaction is as reset leaves it. -/
def Obligations.ContainmentEndsByResetAlone : Prop :=
  ∀ c s t, exec c s = .next t → s.cons.contained = true →
    (t.cons.contained = true ∧ t.cons.first = s.cons.first ∧ t.cons.salvage = s.cons.salvage) ∨
    (resets c = true ∧ t.cons.contained = false ∧ t.slices = State.reset.slices ∧ t.binds = State.reset.binds ∧ t.pool = State.reset.pool ∧
      t.mgmt.state = .notReady ∧ t.mgmt.cfg = [] ∧ t.mgmt.works = [] ∧ t.mgmt.txn = none ∧ t.clk.homeOwn = false)

/-- R211, R373: domain time never falls, and no stalagmite counter does, through a command that can begin no reset; what the ledger
holds of a counter falls through no command. -/
def Obligations.TimeAndCountersNeverFall : Prop :=
  (∀ c s t, resets c = false → exec c s = .next t → s.dom.time ≤ t.dom.time) ∧
  (∀ c s t, Sound s → resets c = false → exec c s = .next t →
    ∀ x ∈ s.led.stal, ∃ y ∈ t.led.stal, y.id = x.id ∧ y.index = x.index ∧ x.value ≤ y.value) ∧
  (∀ c s t, Sound s → exec c s = .next t →
    ∀ x ∈ s.led.stal, ∃ y ∈ t.led.stal, y.id = x.id ∧ y.index = x.index ∧ x.written ≤ y.written)

/-! ## The mailboxes themselves -/

/-- R272, Table MBX-2: the response area. A mailbox that has taken a command answers with the command's OPCODE and COOKIE, the status, the
responder, the payload's length and bytes, the DETAIL for a status other than OK alone, and zeros in bytes 12 to 15.
R272, R276, R389, R426: the checks, in order. A malformed area gets BAD_ARG, an opcode that is not assigned BAD_OPCODE, an opcode that the
secondary mailbox does not accept NOT_PERMITTED 0x0101, a command that Table CONS-7 refuses in containment NOT_PERMITTED 0x0102, and
one that recovery does not serve NOT_PERMITTED 0x0B07; none of them has another effect. -/
def Obligations.ResponsesAndChecks : Prop :=
  (∀ op cookie responder r, op < 2 ^ 16 → cookie < 2 ^ 32 → responder < 256 → r.status < 256 → r.detail < 2 ^ 16 → r.payload.length ≤ 4080 →
    let bs := respBytes op cookie responder r
    leAt bs 0 2 = op ∧ leAt bs 2 1 = r.status ∧ leAt bs 3 1 = responder ∧ leAt bs 4 2 = r.payload.length ∧
    leAt bs 6 2 = (if r.status = 0 then 0 else r.detail) ∧ leAt bs 8 4 = cookie ∧ leAt bs 12 4 = 0 ∧ bs.drop 16 = r.payload) ∧
  ((∀ op a s, Sound s → hostUp s = true → s.mgmt.pri.state = .idle → isPrimary s = true → s.mgmt.state = .running → a.via = .primary →
    op < 2 ^ 16 → handlerOf op = none → a.cookie < 2 ^ 32 → a.resv < 2 ^ 56 → a.payloadLen < 2 ^ 16 →
    Becomes (.badOpcode op a) s (answer op a (if areaOk a then { status := stBadOpcode } else replyBad) (begin s))) ∧
  (∀ a s, Sound s → hostUp s = true → s.mgmt.pri.state = .idle → isPrimary s = true → s.mgmt.state = .running → a.via = .primary →
    a.cookie < 2 ^ 32 → (a.resv % 2 ^ 56 ≠ 0 ∨ (0x40 ≤ a.target % 256 ∧ a.target % 256 ≤ 0xFE) ∨ 4080 < a.payloadLen % 2 ^ 16) →
    Becomes (.poolErase a) s (answer 0x0411 a replyBad (begin s))) ∧
  (∀ a s, Sound s → Made a → smbusUp s = true → s.mgmt.sec.state = .idle → s.mgmt.state = .running → a.via = .secondary → a.target = 0xFF →
    Becomes (.poolErase a) s (answer 0x0411 a (replyNo 0x0101) (begin s))) ∧
  (∀ a s, Sound s → Made a → Reaches 0x0411 a s → s.mgmt.state = .running → s.cons.contained = true →
    Becomes (.poolErase a) s (answer 0x0411 a (replyNo 0x0102) (begin s))) ∧
  (∀ a s, Sound s → Made a → Reaches 0x0203 a s → s.mgmt.state = .recovery → s.cons.contained = true →
    Becomes (.cfgCommit a) s (answer 0x0203 a (replyNo 0x0102) (begin s))) ∧
  (∀ a s, Sound s → Made a → Reaches 0x0411 a s → s.mgmt.state = .recovery → s.cons.contained = false →
    Becomes (.poolErase a) s (answer 0x0411 a (replyNo 0x0B07) (begin s))))

/-- R205, R274, R276: hardware answers a command itself with RESPONDER 0xFF and no payload: BUSY before firmware has reported ready,
MANAGEMENT_UNAVAILABLE while Spindle is halted, restarts or is replaced. A secondary's own mailbox answers NOT_PERMITTED (the DETAIL
is the model's, log entry 28).
R273: a doorbell rung while the mailbox is TAKEN or DONE is ignored and counted in RING_IGNORED, which saturates at 255. -/
def Obligations.HardwareAnswersAndCountsDoorbells : Prop :=
  (∀ a s, Sound s → Made a → Reaches 0x0100 a s → a.via ≠ .relay →
    let u := taken 0x0100 a (begin s)
    (s.mgmt.state = .notReady →
      Becomes (.identify a) s (respond u a.via 0x0100 a.cookie 0 0xFF { status := stBusy })) ∧
    ((s.mgmt.state = .halted ∨ s.mgmt.state = .restarting ∨ s.mgmt.state = .liveActivation) →
      Becomes (.identify a) s (respond u a.via 0x0100 a.cookie 0 0xFF { status := stUnavailable })) ∧
    (∀ b, Made b → b.via = .primary → hostUp s = true → s.mgmt.pri.state = .idle → isPrimary s = false →
      Becomes (.identify b) s (respond (taken 0x0100 b (begin s)) .primary 0x0100 b.cookie 0 0xFF (replyNo 0x0104)))) ∧
  (let counted := fun (s : State) =>
    { begin s with mgmt := { s.mgmt with pri := { s.mgmt.pri with ringIgnored := min (s.mgmt.pri.ringIgnored + 1) 255 } } }
  (∀ s, Sound s → hostUp s = true → s.mgmt.pri.state ≠ .idle → Becomes .ringIgnored s (counted s)) ∧
  (∀ op a s, Sound s → hostUp s = true → s.mgmt.pri.state ≠ .idle → a.via = .primary → Becomes (.badOpcode op a) s (counted s)))

/-! ## Host registers, MSI-X and Spindle -/

/-- R280, R281, R335, R405: reads of BAR0 and BAR4 with side effects. A 64-bit read of NQ_DATA returns and pops the head word; a 32-bit read, or
one of a queue with no word visible (assumption 85), returns zeros and pops nothing; NQ_LOST is cleared by its read; TRACE_READ pops the
next word of the record being read, or the first of the oldest record visible, and returns zeros when there is none, for a 32-bit
read, and while the OBS port takes the trace; the error-log window returns the slot of the record whose SEQ has its number, zeros where
none was written, and zeros with an error record where the line of HBM is uncorrectable.
R7, R9, R11, R401: reads of BAR0. A read that is not an aligned one of 32 or 64 bits returns zeros and has no effect; so does one of a
write-only register or of an offset not listed. GSTATUS, MGMT_STATE, MBX_STATUS and FAULT_STATUS hold their fields at their bits, and
zeros at the reserved ones; a read of NQ_LOST returns and clears it. -/
def Obligations.RegisterReadsWithEffects : Prop :=
  (∀ s w ws, Sound s → hostUp s = true → s.mgmt.nq = w :: ws → s.mgmt.nqHidden ≤ ws.length →
    Becomes (.nqDataRead true) s { begin s with mgmt := { s.mgmt with nq := ws, nqFreed := s.mgmt.nqFreed + 1 }, out := [.read w.toNat] } ∧
    Becomes (.nqDataRead false) s { begin s with out := [.read 0] }) ∧
  (∀ s wide, Sound s → hostUp s = true → s.mgmt.nq.length ≤ s.mgmt.nqHidden → Becomes (.nqDataRead wide) s { begin s with out := [.read 0] }) ∧
  (∀ s, Sound s → hostUp s = true → s.mgmt.intake.length + 49 ≤ 256 →
    ∃ t, exec .nqLostRead s = .next t ∧ t.mgmt.nqLost = 0 ∧ t.out = [.read s.mgmt.nqLost] ∧ t.mgmt.nq = s.mgmt.nq) ∧
  (∀ s w ws, Sound s → hostUp s = true → cfgGet s keyObsStream 0 = 0 →
    let popped := fun (left : List (BitVec 64)) (trace : List (List (BitVec 64))) =>
      { begin s with obs := { s.obs with readLeft := left, trace := trace, traceFreed := s.obs.traceFreed + 1 }, out := [.read w.toNat] }
    (s.obs.readLeft = w :: ws → Becomes (.traceRead true) s (popped ws s.obs.trace)) ∧
    (∀ rs, s.obs.readLeft = [] → s.obs.trace = (w :: ws) :: rs → s.obs.traceHidden ≤ rs.length → Becomes (.traceRead true) s (popped ws rs))) ∧
  (∀ s, Sound s → hostUp s = true → s.obs.readLeft = [] → s.obs.trace.length ≤ s.obs.traceHidden →
    Becomes (.traceRead true) s { begin s with out := [.read 0] }) ∧
  (∀ s wide, Sound s → hostUp s = true → (wide = false ∨ cfgGet s keyObsStream 0 ≠ 0) → Becomes (.traceRead wide) s { begin s with out := [.read 0] }) ∧
  (∀ s i off width, Sound s → hostUp s = true → i < 65536 → off % 8 = 0 → width % 8 = 0 → off + width ≤ 64 → 0 < width →
    let at' := 0x400000 + 64 * i + off
    (∀ r, slotRecord s i = some r → r.lost = false →
      Becomes (.errorLogWindowRead at' width false) s { begin s with out := [.read (leAt (logBytes r) off width)] }) ∧
    (slotRecord s i = none → Becomes (.errorLogWindowRead at' width false) s { begin s with out := [.read 0] }) ∧
    (∃ t r, exec (.errorLogWindowRead at' width true) s = .next t ∧ .read 0 ∈ t.out ∧
      r ∈ t.prot.log ∧ r.cls = 0x02 ∧ r.addrKind = 2 ∧ r.addr = some (0x290000000 + 64 * i))) ∧
  (∀ s off width, hostUp s = true → off < 65536 → ¬(width = 4 ∧ off % 4 = 0) → ¬(width = 8 ∧ off % 8 = 0) →
    registerRead off width s = returnRead 0 s) ∧
  (∀ s, hostUp s = true →
    (∀ off ∈ [0x18, 0x100, 0x04, 0x14, 0x108, 0x3000, 0x5000, 0x6000, 0xC004], registerRead off 4 s = returnRead 0 s) ∧
    registerRead 0x3018 4 s = returnRead s.mgmt.nqLost { s with mgmt := { s.mgmt with nqLost := 0 } } ∧
    (∃ v, registerRead 0x08 8 s = returnRead v s ∧ bits v 4 0 = s.clk.step % 32 ∧ bitOf v 5 = s.clk.failedStep.isSome ∧ bitOf v 6 = s.clk.strapInvalid ∧
      bitOf v 7 = s.clk.selftestFail ∧ bits v 11 8 = s.clk.hbmFail.toNat ∧ (∀ k : Fin 4, bitOf v (12 + k) = (s.hbm.stk[k]).retrainPending) ∧
      bitOf v 16 = s.clk.ledgerFail ∧ bitOf v 17 = s.clk.fwReady ∧ bitOf v 18 = s.clk.homeOwn ∧ bitOf v 19 = s.clk.homeLine ∧
      bitOf v 20 = (s.dom.formed && !s.dom.down) ∧ bitOf v 21 = isPrimary s ∧ bitOf v 22 = ringEn s ∧ bitOf v 23 = s.cons.contained ∧
      bits v 28 24 = s.clk.failedStep.getD 0 % 32 ∧ v < 2 ^ 29) ∧
    (∃ v, registerRead 0x10 4 s = returnRead v s ∧ bits v 3 0 = mgmtNumber s.mgmt.state ∧ bitOf v 4 = s.mgmt.fault ∧ bits v 5 5 = s.sec.active % 2 ∧
      bits v 15 8 = s.mgmt.haltCause % 256 ∧ bits v 7 6 = 0 ∧ v < 2 ^ 16) ∧
    (∃ v, registerRead 0x104 4 s = returnRead v s ∧ bitOf v 0 = (s.mgmt.pri.state == .done) ∧ bitOf v 1 = (s.mgmt.pri.state == .taken) ∧ bits v 7 2 = 0 ∧
      bits v 15 8 = s.mgmt.pri.lastStatus % 256 ∧ bits v 23 16 = s.mgmt.pri.ringIgnored % 256 ∧ v < 2 ^ 24) ∧
    (∃ v, registerRead 0x4000 8 s = returnRead v s ∧ bitOf v 0 = s.cons.contained ∧ bitOf v 1 = (s.cons.contained && s.cons.salvage) ∧
      bitOf v 2 = s.mgmt.fault ∧ bitOf v 3 = faultN s ∧ bits v 7 4 = 0 ∧ bits v 15 8 = s.cons.later % 256 ∧ bits v 31 16 = 0 ∧
      bits v 63 32 = s.cons.first % 2 ^ 32))

/-- R273, R285, R401, R402, R404: writes of BAR0. DONE written with 1 returns the mailbox to IDLE and clears RING_IGNORED; CROSSED written with 1
clears it, loads PEAK with the count and compares in the next cycle; RESTART with its key restarts a halted Spindle, and is ignored
otherwise; the command area is writable in IDLE alone; a write by offset of DONE, SPINDLE_CTRL, a CROSSED bit, also through WM_SUMMARY, or
the doorbell of a mailbox that is not IDLE, has the effect of the command that stands for it; one that is neither an aligned 32-bit nor
an aligned 64-bit write has none. DOE Abort discards the data object. -/
def Obligations.RegisterWrites : Prop :=
  (∀ s, Sound s → hostUp s = true → s.mgmt.pri.state = .done →
    Becomes .mbxDoneClear s { begin s with mgmt := { s.mgmt with pri := { s.mgmt.pri with state := .idle, ringIgnored := 0 } } }) ∧
  (∀ s, Sound s → hostUp s = true → s.mgmt.pri.state ≠ .done → Becomes .mbxDoneClear s (begin s)) ∧
  (∀ s (w : Fin 49), hostUp s = true → (s.mgmt.wms[w]).crossed = true → (s.mgmt.wms[w]).recheck = false →
    ∃ t, exec (.wmCrossedClear w) s = .next t ∧ (t.mgmt.wms[w]).crossed = false ∧ (t.mgmt.wms[w]).peak = wmCount s w ∧ (t.mgmt.wms[w]).recheck = true) ∧
  (∀ s v, hostUp s = true → s.mgmt.state = .halted → bitOf v 0 = true → bits v 31 16 = 0x5350 →
    ∃ t, exec (.spindleRestart v) s = .next t ∧ t.mgmt.state = .restarting ∧ t.mgmt.haltCause = s.mgmt.haltCause ∧ t.mgmt.fault = s.mgmt.fault ∧
      t.sec.running = none ∧ t.sec.sessions = [] ∧ t.sec.staged = [] ∧ t.slices = s.slices ∧ t.ports = s.ports ∧ t.hbm = s.hbm) ∧
  (∀ s v, Sound s → (s.mgmt.state ≠ .halted ∨ bitOf v 0 = false ∨ bits v 31 16 ≠ 0x5350) → Becomes (.spindleRestart v) s (begin s)) ∧
  (∀ s, Sound s → configUp s = true → Becomes .doeAbort s { begin s with hst := { s.hst with doeObject := none, doeError := false } }) ∧
  (∀ s v, v < 2 ^ 32 → bitOf v 0 = true → exec (.registerWrite 0x104 4 v) s = exec .mbxDoneClear s) ∧
  (∀ s v, v < 2 ^ 32 → bitOf v 0 = true → s.mgmt.pri.state ≠ .idle → exec (.registerWrite 0x100 4 v) s = exec .ringIgnored s) ∧
  (∀ s v, v < 2 ^ 32 → exec (.registerWrite 0x18 4 v) s = exec (.spindleRestart v) s) ∧
  (∀ s (w : Fin 49) v, v < 2 ^ 32 → bitOf v 0 = true → exec (.registerWrite (0x4100 + 16 * w.val) 4 v) s = exec (.wmCrossedClear w) s) ∧
  (∀ s (w : Fin 49), exec (.registerWrite 0x4008 8 (2 ^ w.val)) s = exec (.wmCrossedClear w) s) ∧
  (∀ s off v, Sound s → hostUp s = true → off % 4 = 0 → off < 4096 → v < 2 ^ 32 →
    (s.mgmt.pri.state = .idle → Becomes (.registerWrite (0x1000 + off) 4 v) s
      { begin s with mgmt := { s.mgmt with pri := { s.mgmt.pri with cmd := s.mgmt.pri.cmd.writeBytes off (leBytes 4 v) } } }) ∧
    (s.mgmt.pri.state ≠ .idle → Becomes (.registerWrite (0x1000 + off) 4 v) s (begin s))) ∧
  (∀ s off width v, Sound s → ¬(width = 4 ∧ off % 4 = 0) → ¬(width = 8 ∧ off % 8 = 0) → Becomes (.registerWrite off width v) s (begin s))

/-- R397, R403: a vector that is pending is sent when it is unmasked, and no other pending bit moves; events held while MSI-X was disabled
are pending or sent once it is enabled; messages are not sent in D3hot, and those pending and unmasked are sent after the return
to D0. (Enabling MSI-X stands for Bus Master Enable too, log entry 12.)
R277, R280, R425, Table MBX-4: the packets of the notification queue. A packet's words carry VALID, the last one END; its header NTYPE, NLEN,
NSEQ and ARG. The oldest event held becomes a packet, pushed whole under the next NSEQ; where no space is left for all of its words, not
counting that of words popped in this cycle (assumption 85), it is dropped, NQ_LOST rises and NSEQ advances all the same. -/
def Obligations.VectorsAndNotificationPackets : Prop :=
  ((∀ s (v : Fin 32), Sound s → hostUp s = true → (s.hst.vectors[v]).pending = true → s.hst.msixEnable = true → s.hst.busMaster = true →
    Becomes (.msixUnmask (some v)) s { begin s with
      hst := { s.hst with vectors := s.hst.vectors.set v { s.hst.vectors[v] with masked := false, pending := false } }, out := [.msix v] }) ∧
  (∀ s (v : Fin 32), Sound s → hostUp s = true → (s.hst.vectors[v]).pending = false →
    Becomes (.msixUnmask (some v)) s { begin s with hst := { s.hst with vectors := s.hst.vectors.set v { s.hst.vectors[v] with masked := false } } }) ∧
  (∀ s, configUp s = true → ∃ t, exec (.msixUnmask none) s = .next t ∧ t.hst.msixEnable = true ∧
    ∀ v : Fin 32, (t.hst.vectors[v]).held = false ∧
      (((s.hst.vectors[v]).held = true ∨ (s.hst.vectors[v]).pending = true) →
        if (s.hst.vectors[v]).masked = true ∨ s.hst.d3hot = true then (t.hst.vectors[v]).pending = true
        else .msix v ∈ t.out ∧ (t.hst.vectors[v]).pending = false)) ∧
  (∀ s, configUp s = true → ∃ t, exec (.pciePowerStateChange true) s = .next t ∧ t.hst.d3hot = true ∧ t.hst.vectors = s.hst.vectors ∧ t.out = []) ∧
  (∀ s, configUp s = true → s.hst.msixEnable = true → s.hst.busMaster = true →
    ∃ t, exec (.pciePowerStateChange false) s = .next t ∧ t.hst.d3hot = false ∧
      ∀ v : Fin 32, (s.hst.vectors[v]).pending = true → (s.hst.vectors[v]).masked = false → .msix v ∈ t.out ∧ (t.hst.vectors[v]).pending = false)) ∧
  ((∀ e n, e.ntype < 2 ^ 8 → e.arg < 2 ^ 30 → n < 2 ^ 16 →
    ∃ w0 rest, packetWords e n = w0 :: rest ∧ rest.length = b2n e.word.isSome ∧ bits w0.toNat 7 0 = e.ntype ∧ bits w0.toNat 10 8 = rest.length ∧
      bits w0.toNat 15 11 = 0 ∧ bits w0.toNat 31 16 = n ∧ bits w0.toNat 61 32 = e.arg ∧ bitOf w0.toNat 63 = true ∧
      bitOf w0.toNat 62 = e.word.isNone ∧
      ∀ w ∈ rest, bitOf w.toNat 63 = true ∧ bitOf w.toNat 62 = true ∧ ∀ x, e.word = some x → bits w.toNat 61 0 = x % 2 ^ 62) ∧
  (∀ s e es, spindleServes s = true → isPrimary s = true → s.mgmt.intake = e :: es →
    let n := (s.mgmt.nseq + s.mgmt.intakeLost) % 65536
    ∃ t, exec .notificationPush s = .next t ∧ t.mgmt.nseq = (n + 1) % 65536 ∧
      (s.mgmt.nq.length + s.mgmt.nqFreed + (packetWords e n).length ≤ 512 → t.mgmt.nq = s.mgmt.nq ++ packetWords e n) ∧
      (512 < s.mgmt.nq.length + s.mgmt.nqFreed + (packetWords e n).length → t.mgmt.nq = s.mgmt.nq ∧ (s.mgmt.nqLost < 2 ^ 32 - 1 → s.mgmt.nqLost < t.mgmt.nqLost))) ∧
  (∀ s, spindleServes s = true → isPrimary s = true → s.mgmt.dmaHalted = [] → s.mgmt.intake = [] → s.prot.log.all (fun r => r.notified || !(recNotified r)) = true →
    ∃ t, exec .spindleResume s = .next t ∧ t.mgmt.nq = s.mgmt.nq ∧ t.mgmt.nseq = (s.mgmt.nseq + s.mgmt.intakeLost) % 65536) ∧
  (∀ s r, spindleServes s = true → isPrimary s = true → s.mgmt.dmaHalted = [] → s.mgmt.intake = [] → s.prot.log = [r] → r.notified = false →
    recNotified r = true → s.mgmt.nq.length + s.mgmt.nqFreed + 2 ≤ 512 →
    ∃ t, exec .spindleResume s = .next t ∧ t.prot.log = [{ r with notified := true }] ∧
      t.mgmt.nq = s.mgmt.nq ++ packetWords (recordEvent r) ((s.mgmt.nseq + s.mgmt.intakeLost) % 65536)))

/-- R240, R241, R242, R275, R300: Spindle. A trap on a page that has not trapped for one second, of which a source holds the page whole, is
recorded; one in the handler itself, one on a page that trapped less than one second ago, or one on a page that no source holds, halts Spindle
with cause 1, and a data load that meets a UE with cause 2: MGMT_FAULT is set, the command a mailbox has taken is answered
MANAGEMENT_UNAVAILABLE, and the SPDM sessions end (stated with no configuration transaction open). A DMA channel that halts is recorded
and restarted by firmware that runs; at its second halt on the same line a staged image whose line it is is discarded. A channel
stays halted while Spindle is. -/
def Obligations.SpindleTrapsAndHalts : Prop :=
  let halted := fun (cause : Nat) (s t : State) =>
    t.mgmt.state = .halted ∧ t.mgmt.fault = true ∧ t.mgmt.haltCause = cause ∧ t.sec.sessions = [] ∧ t.slices = s.slices ∧ t.binds = s.binds ∧
    (s.mgmt.pri.state = .taken → t.mgmt.pri.state = .done ∧ t.mgmt.pri.lastStatus = stUnavailable) ∧
    (s.mgmt.sec.state = .taken → t.mgmt.sec.state = .idle ∧ t.mgmt.sec.lastStatus = stUnavailable)
  let whole := fun (x : PageSources) => (x.imageUe = false ∧ x.imageDigest = true) ∨ x.flashDigest = true
  (∀ s page x, spindleExecutes s = true → (∀ t, (page, t) ∈ s.mgmt.trapPages → t + 1000000000 ≤ nowNs s) → x.inHandler = false → whole x →
    ∃ t r, exec (.fetchTrap page x) s = .next t ∧ (page, nowNs s) ∈ t.mgmt.trapPages ∧ t.mgmt.state = s.mgmt.state ∧ t.mgmt.fault = s.mgmt.fault ∧
      r ∈ t.prot.log ∧ r.cls = 0x0B ∧ r.srcKind = 3) ∧
  (∀ s page x, spindleExecutes s = true → s.mgmt.txn = none →
    (x.inHandler = true ∨ ¬ whole x ∨ ∃ t, (page, t) ∈ s.mgmt.trapPages ∧ nowNs s < t + 1000000000) →
    ∃ t, exec (.fetchTrap page x) s = .next t ∧ halted 1 s t) ∧
  (∀ s a, spindleExecutes s = true → s.mgmt.txn = none → ∃ t, exec (.dataLoadUe a) s = .next t ∧ halted 2 s t) ∧
  (∀ s ch a, s.clk.reset = none → spindleServes s = false → ch < 8 → ∃ t, exec (.dmaHalt ch a) s = .next t ∧
    t.mgmt.dmaHalted = s.mgmt.dmaHalted.filter (·.1 != ch) ++ [(ch, a / 64 * 64)]) ∧
  (∀ s ch a, spindleServes s = true → ch < 8 →
    let line := (ch, a / 64 * 64)
    ∃ t r, exec (.dmaHalt ch a) s = .next t ∧ r ∈ t.prot.log ∧ r.cls = 0x0C ∧ r.srcKind = 4 ∧ r.src = ch ∧ r.addr = some (a / 64 * 64) ∧
      t.mgmt.dmaHalted = s.mgmt.dmaHalted.filter (·.1 != ch) ∧
      (line ∉ s.mgmt.dmaRetried → t.mgmt.dmaRetried = s.mgmt.dmaRetried ++ [line]) ∧
      (line ∈ s.mgmt.dmaRetried → 0x290400000 ≤ a → a < 0x292400000 → t.mgmt.dmaRetried = s.mgmt.dmaRetried.filter (· != line) ∧ t.sec.staged = []))

/-- R393, R394: the keys of an encrypted link, in an established session, with no change of LNK_ENC_ALG to take effect. KEY_PROG loads a key
and its IV seed for one direction and phase and takes the port for its session; for the phase in use for transmission it answers
STATUS 3. KEY_GO makes a phase usable once both its directions are loaded; KEY_QUERY reports; KEY_ERASE erases every key of the port
and clears its waiting. A port that cannot hold a key answers STATUS 1, one whose keys another session owns STATUS 2, and nothing
changes. A link that would run in clear with usable keys, or encrypted without one, goes to DETECT (the model's reading, DEDUCED:
assumption 69). -/
def Obligations.LinkKeyMessages : Prop :=
  let said := fun (s : State) (x : SpdmSession) (op st : Nat) (p : Fin 24) (extra : List Byte) =>
    { s with out := [.spdm x.inst (leBytes 1 (op + 0x80) ++ leBytes 1 p.val ++ leBytes 1 st ++ extra)] }
  let held := fun (e : PortEnc) => b2n e.tx0.isSome + 2 * b2n e.tx1.isSome + 4 * b2n e.rx0.isSome + 8 * b2n e.rx1.isSome
  ∀ (s : State) id x (p : Fin 24), Sound s → sessionOf s id = some x → algTakes (begin s) p = begin s →
    (keyStatus s id p ≠ 0 →
      (∀ rx ph k iv, Becomes (.keyProg id p rx ph k iv) s (said s x 1 (keyStatus s id p) p [])) ∧
      (∀ rx ph, Becomes (.keyGo id p rx ph) s (said s x 2 (keyStatus s id p) p [])) ∧
      Becomes (.keyErase id p) s (said s x 4 (keyStatus s id p) p [])) ∧
    (∀ rx ph k iv, keyStatus s id p = 0 → (s.ports[p]).enc.on = true → (s.ports[p]).tx.phase = ph →
      Becomes (.keyProg id p rx ph k iv) s (said s x 1 3 p [])) ∧
    (∀ rx ph k iv, keyStatus s id p = 0 → ¬((s.ports[p]).enc.on = true ∧ (s.ports[p]).tx.phase = ph) →
      let key : LinkKey := { key := if cfgGet s keyEncAlg p = 1 then k % 2 ^ 128 else k % 2 ^ 256, iv := iv % 2 ^ 96 }
      let e := { setKey (s.ports[p]).enc rx ph (some key) with owner := some id }
      Becomes (.keyProg id p rx ph k iv) s (said { s with ports := s.ports.set p { s.ports[p] with enc := e } } x 1 0 p []) ∧
      keyOf e rx ph = some key ∧ (∀ rx' ph', (rx', ph') ≠ (rx, ph) → keyOf e rx' ph' = keyOf (s.ports[p]).enc rx' ph')) ∧
    (∀ rx ph a b, keyStatus s id p = 0 → keyOf (s.ports[p]).enc false ph = some a → keyOf (s.ports[p]).enc true ph = some b →
      let e := setKey (setKey (s.ports[p]).enc false ph (some { a with usable := true })) true ph (some { b with usable := true })
      let y : Port := { s.ports[p] with enc := e, tx := { (s.ports[p]).tx with phaseNext := (s.ports[p]).enc.on && (s.ports[p]).tx.phase != ph } }
      let u := said { s with ports := s.ports.set p y } x 2 0 p []
      Becomes (.keyGo id p rx ph) s (kept s
        (if ((s.ports[p]).link.state = .active ∨ (s.ports[p]).link.state = .retrain) ∧ holdsKeys e ≠ (s.ports[p]).enc.on then linkDown u p .detect else u))) ∧
    (∀ rx ph, keyStatus s id p = 0 → (keyOf (s.ports[p]).enc false ph = none ∨ keyOf (s.ports[p]).enc true ph = none) →
      Becomes (.keyGo id p rx ph) s (said s x 2 0 p [])) ∧
    Becomes (.keyQuery id p) s (said s x 3 (keyStatus s id p) p
      (leBytes 1 (held (s.ports[p]).enc + 16 * b2n (s.ports[p]).enc.on + 32 * b2n (s.ports[p]).tx.phase + 64 * b2n (s.ports[p]).link.waitKeys))) ∧
    (keyStatus s id p = 0 → ∃ t, exec (.keyErase id p) s = .next t ∧ held (t.ports[p]).enc = 0 ∧ (t.ports[p]).enc.owner = none ∧
      (t.ports[p]).link.waitKeys = false ∧
      ((s.ports[p]).enc.on = true → ((s.ports[p]).link.state = .active ∨ (s.ports[p]).link.state = .retrain) → (t.ports[p]).link.state = .detect) ∧
      ((s.ports[p]).enc.on = false → (t.ports[p]).link.state = (s.ports[p]).link.state ∧ ∀ q, q ≠ p → t.ports[q] = s.ports[q]))

/-! ## Resets, clocks and start-up -/

/-- R204, R352, R353, R354, R361, R362, R373, R422: the pins. RESET_N resets everything but the always-on island, latches CLEAN and keeps the
calendar, the MRAM and the flash; PWRGOOD takes the calendar too, and the stalagmite counters fall to what the ledger holds; the straps
are sampled as RESET_N is released, and the reset ends when REFCLK is qualified and no thermal reset holds; PERST_N touches the endpoint
alone; a junction above 110 C begins a THERMAL reset, also one that joins a PIN reset. -/
def Obligations.ResetsBeginAndEnd : Prop :=
  let fresh := fun (t : State) => t.slices = State.reset.slices ∧ t.binds = State.reset.binds ∧ t.pool = State.reset.pool ∧ t.hbm = State.reset.hbm ∧
    t.mgmt.cfg = [] ∧ t.mgmt.state = .notReady ∧ t.mgmt.txn = none ∧ t.cons.contained = false ∧ t.clk.homeOwn = false ∧ t.hst = State.reset.hst
  let kept' := fun (s t : State) => t.led.roots = s.led.roots ∧ t.sec.slotA = s.sec.slotA ∧ t.sec.slotB = s.sec.slotB ∧ t.cons.latch = s.cons.latch ∧
    t.fuses = s.fuses
  (∀ s, s.clk.pwrgood = true → s.clk.resetN = true → s.clk.reset = none → ∃ t, exec .resetNAssert s = .next t ∧ t.clk.resetN = false ∧
    t.clk.reset = some .pin ∧ t.clk.lastReset = .pin ∧ t.clk.resetAt = nowNs s ∧ t.clk.clean = cleanNow s ∧ fresh t ∧ kept' s t ∧ t.cal = s.cal ∧
    t.mgmt.locked = false) ∧
  (∀ s, Sound s → s.clk.pwrgood = true → ∃ t, exec .pwrgoodDeassert s = .next t ∧ t.clk.pwrgood = false ∧ fresh t ∧ kept' s t ∧ t.cal = {} ∧
    t.clk.halfValid = false ∧ ∀ x ∈ t.led.stal, x.value = x.written) ∧
  (∀ s, s.clk.pwrgood = false → ∃ t, exec .pwrgoodAssert s = .next t ∧ t.clk.pwrgood = true ∧ t.clk.reset = some .powerOn ∧ t.clk.half = 0 ∧
    t.clk.halfValid = true) ∧
  (∀ s v, s.clk.resetN = false → ∃ t, exec (.resetNDeassert v) s = .next t ∧ t.clk.resetN = true ∧ t.dom.straps = v ∧
    t.dom.index = (if v.getLsbD 1 then some 0 else none) ∧ t.clk.strapInvalid = strapsBad v ∧ t.hst.tapIr = 2 ∧
    t.clk.reset = if s.clk.pwrgood = true ∧ s.clk.refQualified = true ∧ 2 ∈ s.clk.stepDone ∧ s.clk.thermN = false then none else s.clk.reset) ∧
  (∀ s, ∃ t, exec .perstNAssert s = .next t ∧ t.clk.perstN = false ∧ t.hst.cfgReady = false ∧ t.hst.msixEnable = false ∧ t.hst.busMaster = false ∧
    (∀ v : Fin 32, (t.hst.vectors[v]).pending = false ∧ (t.hst.vectors[v]).masked = true ∧ (t.hst.vectors[v]).held = (s.hst.vectors[v]).held) ∧
    t.slices = s.slices ∧ t.ports = s.ports ∧ t.mgmt.pri = { s.mgmt.pri with ringIgnored := min s.mgmt.pri.ringIgnored 255 } ∧
    t.mgmt.works = s.mgmt.works ∧ t.mgmt.nq = s.mgmt.nq ∧ ∀ x ∈ t.sec.sessions, x.inst ≠ 0) ∧
  (∀ s, Sound s → Becomes .perstNDeassert s { begin s with clk := { s.clk with perstN := true } }) ∧
  (∀ s t0 ts, Sound s → s.clk.pwrgood = true → s.clk.reset = none →
    let top := (ts.foldl max t0 : Int)
    ∃ t, exec (.junctionTempRead (t0 :: ts)) s = .next t ∧ stalGet t 5 0 = max (stalGet s 5 0) top.toNat ∧
      (top < 450 → t.clk.hot = true) ∧
      (850 < top → s.clk.hot = true → t.clk.hot = false ∧ stalGet t 4 0 = stalGet s 4 0 + 1) ∧
      (1100 < top → t.clk.thermN = true ∧ t.clk.reset = some .thermal ∧ fresh t) ∧
      (top ≤ 1100 → t.clk.thermN = s.clk.thermN ∧ t.clk.reset = none ∧ t.slices = s.slices)) ∧
  (∀ s t0, s.clk.pwrgood = true → s.clk.reset = some .pin → 1100 < t0 → ∃ t, exec (.junctionTempRead [t0]) s = .next t ∧
    t.clk.reset = some .thermal ∧ t.clk.thermN = true) ∧
  (∀ s, s.clk.thermN = true → ∃ t, exec .thermalRelease s = .next t ∧ t.clk.thermN = false ∧
    t.clk.reset = if s.clk.pwrgood = true ∧ s.clk.resetN = true ∧ s.clk.refQualified = true ∧ 2 ∈ s.clk.stepDone then none else s.clk.reset)

/-- R340 to R348, R350, R351: the clock sources. Eight good windows qualify REFCLK and request the switch to it; a window that is not good, or a gap,
loses it, which is a CLOCK_LOSS reset; two bad windows of the reciprocal check mark the fallback oscillator unavailable, two good ones
available; a switch adds 320 ns to the always-on domain's timers, a forced one 2,560 ns and one to the count of forced switches; a PLL that
feeds the core, the HBM or PCIe resets the device with its lock, any other does not; a gated clock stops without open work and
restarts on demand with those above it, a port's never on demand. -/
def Obligations.ClockSourcesChange : Prop :=
  (∀ s, s.clk.monitor = true → s.clk.refQualified = false → s.clk.gap = false → s.clk.aon = .fallback → 0 ∉ s.clk.switching →
    (7 ≤ s.clk.goodWindows → ∃ t, exec (.monitorWindowEnd true) s = .next t ∧ t.clk.refQualified = true ∧ t.clk.goodWindows = 8 ∧ 0 ∈ t.clk.switching) ∧
    (s.clk.goodWindows < 7 → ∃ t, exec (.monitorWindowEnd true) s = .next t ∧ t.clk.refQualified = false ∧ t.clk.goodWindows = s.clk.goodWindows + 1)) ∧
  (∀ s good, s.clk.monitor = true → s.clk.refQualified = false → (good = false ∨ s.clk.gap = true) →
    ∃ t, exec (.monitorWindowEnd good) s = .next t ∧ t.clk.refQualified = false ∧ t.clk.goodWindows = 0 ∧ t.clk.gap = false) ∧
  (∀ s c, s.clk.monitor = true → s.clk.pwrgood = true → s.clk.refQualified = true → s.clk.reset = none →
    (c = .refclkGap ∨ c = .monitorWindowEnd false ∨ (c = .monitorWindowEnd true ∧ s.clk.gap = true)) →
    ∃ t, exec c s = .next t ∧ t.clk.refQualified = false ∧ t.clk.reset = some .clockLoss ∧ t.slices = State.reset.slices ∧ t.clk.homeOwn = false ∧
      (s.clk.fallbackOk = true → t.cal = s.cal ∧ (s.clk.aon = .reference → 0 ∈ t.clk.switching)) ∧
      (s.clk.fallbackOk = false → t.cal = {} ∧ t.clk.halfValid = false)) ∧
  (∀ s, s.clk.pwrgood = true → s.clk.oscQualified = false → ∃ t, exec .oscillatorQualified s = .next t ∧ t.clk.oscQualified = true ∧
    t.clk.monitor = true ∧ t.clk.gap = false ∧ 1 ∈ t.clk.stepDone ∧
    (s.clk.gap = true → ledgerWritable s = false → t.led.held = s.led.held ++ [(0x0C, leBytes 1 2 ++ leBytes 1 0)])) ∧
  (∀ s, s.clk.refQualified = true → s.clk.fallbackOk = true → s.clk.fbBad = 1 →
    ∃ t, exec (.fallbackCheckWindow false) s = .next t ∧ t.clk.fallbackOk = false) ∧
  (∀ s, s.clk.refQualified = true → s.clk.fallbackOk = false → s.clk.fbGood = 1 →
    ∃ t, exec (.fallbackCheckWindow true) s = .next t ∧ t.clk.fallbackOk = true) ∧
  (∀ s, s.clk.refQualified = true → s.clk.fallbackOk = true → ∃ t, exec (.fallbackCheckWindow true) s = .next t ∧ t.clk.fallbackOk = true ∧ t.clk.fbBad = 0) ∧
  (∀ s, 0 ∈ s.clk.switching → s.clk.forced ≤ 65535 →
    (∃ t, exec (.clockSwitch 0) s = .next t ∧ t.clk.aon = otherSource s.clk.aon ∧ t.clk.half = s.clk.half + 640 ∧ t.clk.forced = s.clk.forced ∧
      t.cal.sec * 1000000000 + t.cal.ns = s.cal.sec * 1000000000 + s.cal.ns + 320) ∧
    (∃ t, exec (.switchForced 0) s = .next t ∧ t.clk.aon = otherSource s.clk.aon ∧ t.clk.half = s.clk.half + 5120 ∧
      t.clk.forced = min (s.clk.forced + 1) 65535 ∧ t.cal.sec * 1000000000 + t.cal.ns = s.cal.sec * 1000000000 + s.cal.ns + 2560)) ∧
  (∀ s, 1 ∈ s.clk.switching → ∃ t, exec (.clockSwitch 1) s = .next t ∧ t.clk.spindle = otherSource s.clk.spindle ∧ t.clk.half = s.clk.half ∧ t.cal = s.cal) ∧
  (∀ s (x : Fin 32), s.clk.reset = none → s.clk.refQualified = true → x.val ∉ s.clk.pllLocked → pllStopped s x.val = false →
    ∃ t, exec (.pllLock x) s = .next t ∧ t.clk.pllLocked = s.clk.pllLocked ++ [x.val] ∧
      ((x.val = 6 ∨ x.val = 7) → 3 ∈ s.clk.stepDone → x.val - 5 ∈ t.clk.switching ++ t.clk.switchWait)) ∧
  (∀ s (x : Fin 32), x.val ∈ s.clk.pllLocked →
    (x.val ≤ 5 → s.clk.reset = none → ∃ t, exec (.pllLossOfLock x) s = .next t ∧ t.clk.lastReset = .clockLoss ∧ t.slices = State.reset.slices ∧
      t.clk.homeOwn = false ∧ t.cal = s.cal) ∧
    (x.val = 6 → s.clk.spindle = .reference → ∃ t, exec (.pllLossOfLock x) s = .next t ∧ x.val ∉ t.clk.pllLocked ∧
      1 ∈ t.clk.switching ∧ t.slices = s.slices) ∧
    (∀ p : Fin 24, x.val = 8 + p.val →
      let s1 := clockEvent { begin s with clk := { s.clk with pllLocked := s.clk.pllLocked.filter (· != x.val) } } 1 x.val
      Becomes (.pllLossOfLock x) s (kept s (lossOfSignal p s1)))) ∧
  (∀ s level index sub, gateReq s level index (gateSub level sub) = true → gateWork s level index (gateSub level sub) = false →
    ∃ t, exec (.gateStop level index sub) s = .next t ∧
      (∀ g ∈ t.clk.gates, g.level = level → g.index = index → g.sub = gateSub level sub → g.stopped = true) ∧
      t.clk.gates.map (fun g => (g.level, g.index, g.sub)) = s.clk.gates.map (fun g => (g.level, g.index, g.sub)) ∧
      (level = 4 → index + 8 ∉ t.clk.pllLocked)) ∧
  (∀ s level index sub, Sound s → (gateReq s level index (gateSub level sub) = false ∨ gateWork s level index (gateSub level sub) = true) →
    Becomes (.gateStop level index sub) s (begin s)) ∧
  (∀ s level index sub, level < 4 → ∃ t, exec (.gateWake level index sub) s = .next t ∧
    ∀ g ∈ t.clk.gates, (g.level, g.index, g.sub) ∈ gateUp level index (gateSub level sub) → g.stopped = false) ∧
  (∀ s level index sub, Sound s → 4 ≤ level → Becomes (.gateWake level index sub) s (begin s))

/-- R181, R204, R235, R255, R355 to R357, R370, R386 to R389, R396, R402: start-up. Each step of Table CLK-5 ends once the steps before it have, with its effect, and a
step whose turn has not come changes nothing. A ledger without a root, or a stack that does not train, stops start-up; a slot that does
not verify gives way to the other, and without one firmware is in recovery; HOME_READY is released when R357's conditions hold, and not
before. The PCIe link trains at the highest rate that both sides support and the widest width whose lanes train, in FLIT mode where both
support it and always at 64 GT/s; what the partner supports is a free value (assumption 89). POOL_REBUILD after step 14 reads again the extent records that lines
of the page map wait for (the command stands for those reads too: assumption 80). -/
def Obligations.StartUpRunsInOrder : Prop :=
  (∀ s, mayEnd s 3 [1, 2] = true → (List.range 32).all s.clk.pllLocked.contains = true → ∃ t, exec .pllsLocked s = .next t ∧ 3 ∈ t.clk.stepDone ∧
    t.clk.spindle = .reference ∧ t.clk.trace = .reference ∧ 680 ≤ t.clk.avs ∧ t.clk.avs ≤ 850) ∧
  (∀ s, s.clk.reset = none → s.clk.perstN = true → 3 ∈ s.clk.stepDone → ∃ t, ∃ x : PciePartner, ∃ w rev,
    exec .pcieConfigurationReady s = .next t ∧ pcieWidthOf x.lanes = some (w, rev) ∧ t.hst.cfgReady = true ∧ t.hst.pcieWidth = w ∧ t.hst.pcieReversed = rev ∧
      (x.rates.getLsbD 5 = true → t.hst.pcieRate = 6 ∧ t.hst.pcieFlit = true) ∧ (x.flit = true → t.hst.pcieFlit = true) ∧
      (t.hst.pcieRate ≠ 1 → x.rates.getLsbD (t.hst.pcieRate - 1) = true) ∧
      (∀ r, 2 ≤ r → r ≤ 6 → x.rates.getLsbD (r - 1) = true → r ≤ t.hst.pcieRate) ∧
      (mayEnd s 4 [3] = true → 4 ∈ t.clk.stepDone)) ∧
  (∀ s, Sound s → (s.clk.reset ≠ none ∨ s.clk.perstN = false ∨ 3 ∉ s.clk.stepDone) → Becomes .pcieConfigurationReady s (begin s)) ∧
  (pcieWidthOf 0xFF = some (8, false) ∧ pcieWidthOf 0x0F = some (4, false) ∧ pcieWidthOf 0xF0 = some (4, true) ∧ pcieWidthOf 0x17 = some (2, false) ∧
    pcieWidthOf 0x80 = some (1, true) ∧ pcieWidthOf 0 = none) ∧
  (∀ s failed, mayEnd s 5 [3] = true → s.mgmt.txn = none → s.mgmt.works = [] → ∃ t, exec (.checkerSelftestDone failed) s = .next t ∧ 5 ∈ t.clk.stepDone ∧ t.prot.selftestFailed = failed ∧
    t.clk.selftestFail = holdsHome failed ∧ (∀ p : Fin 24, (t.ports[p]).link.codecRestricted = bitOf failed (4 + p.val)) ∧
    (bitOf failed 28 = true → t.mgmt.state = .halted ∧ t.mgmt.haltCause = 3)) ∧
  (∀ s, s.mgmt.state = .notReady → mayEnd s 6 [5] = true → ∃ t, exec .bootSlotVerify s = .next t ∧ 6 ∈ t.clk.stepDone ∧
    (slotVerifies s (nextSlot s) = true → t.sec.active = nextSlot s ∧ t.sec.running = slotImage s (nextSlot s)) ∧
    (slotVerifies s (nextSlot s) = false → slotVerifies s (1 - nextSlot s) = true →
      t.sec.active = 1 - nextSlot s ∧ t.sec.running = slotImage s (1 - nextSlot s)) ∧
    (slotVerifies s (nextSlot s) = false → slotVerifies s (1 - nextSlot s) = false → t.sec.active = nextSlot s ∧ t.sec.running = none)) ∧
  (∀ s, s.clk.reset = none → s.mgmt.state = .restarting → slotVerifies s s.sec.active = false →
    ∃ t, exec .bootSlotVerify s = .next t ∧ t.mgmt.state = .halted ∧ t.mgmt.haltCause = s.mgmt.haltCause) ∧
  (∀ s, booting s = true → mayEnd s 7 [6] = true →
    (rootValue s = none → ∃ t, exec .ledgerMount s = .next t ∧ t.clk.failedStep = some 7 ∧ t.clk.ledgerFail = true ∧ 7 ∉ t.clk.stepDone) ∧
    (rootValue s ≠ none → ∃ t, exec .ledgerMount s = .next t ∧ t.led.mounted = true ∧ t.led.marker = 0 ∧ t.cons.latch = none ∧ t.led.held = [] ∧
      7 ∈ t.clk.stepDone)) ∧
  (∀ s fails, booting s = true → mayEnd s 8 [7] = true → ∃ t, exec (.hbmTrained fails) s = .next t ∧
    (∀ i : Fin 4, fails.getLsbD i.val = false → (t.hbm.stk[i]).trained = true) ∧
    (fails = 0 → 8 ∈ t.clk.stepDone) ∧ (fails ≠ 0 → t.clk.failedStep = some 8 ∧ t.clk.hbmFail = fails ∧ 8 ∉ t.clk.stepDone)) ∧
  (∀ s, booting s = true → mayEnd s 9 [8] = true → ∃ t r, exec .metadataInitialised s = .next t ∧ 9 ∈ t.clk.stepDone ∧
    (∀ k : Fin 16, (t.slices[k]).txns = [] ∧ (t.slices[k]).wbuf = [] ∧ (t.slices[k]).sbq = []) ∧ t.hbm.cache = .enabled ∧ t.prot.log = [r] ∧
    r.cls = 0x0F ∧ r.seq = 0 ∧ t.prot.rct = [] ∧ ∀ f ∈ framesRetired s, isRetired t f = true) ∧
  (∀ s, s.clk.reset = none → s.mgmt.state = .notReady → mayEnd s 10 [4, 6, 9] = true → ringEn s = false → s.dom.time = 0 →
    ∃ t, exec .firmwareReady s = .next t ∧ 10 ∈ t.clk.stepDone ∧ 11 ∈ t.clk.stepDone ∧ t.clk.fwReady = true ∧ t.mgmt.fault = false ∧
      t.mgmt.state = (if s.sec.running.isSome then MgmtState.running else .recovery) ∧ t.dom.timeValid = true ∧ t.dom.timeRun = true ∧ t.dom.time = 0) ∧
  (∀ s expired, mayEnd s 13 [12] = true → (expired = true ∨ ∀ p : Fin 24, isMem s p = true → portUp s p = true) →
    ∃ t, exec (.memoryPortSettle expired) s = .next t ∧ 13 ∈ t.clk.stepDone) ∧
  (∀ s failed, mayEnd s 14 [13] = true → ∃ t, exec (.poolRebuild failed) s = .next t ∧ 14 ∈ t.clk.stepDone ∧ t.pool.rebuilt = true ∧
    (t.mgmt.wms[(48 : Fin 49)]).peak = freeExtents t) ∧
  (∀ s, mayRelease s = true → ∃ t, exec .homeReadyRelease s = .next t ∧ t.clk.homeOwn = true ∧ t.led.marker = 1 ∧ 15 ∈ t.clk.stepDone) ∧
  (∀ s, Sound s → mayRelease s = false → Becomes .homeReadyRelease s (begin s)) ∧
  (∀ s level, Sound s → Becomes (.homeReadyLineChange level) s { begin s with clk := { s.clk with homeLine := level } }) ∧
  (∀ s, Sound s → mayEnd s 3 [1, 2] = false → Becomes .pllsLocked s (begin s)) ∧
  (∀ s failed, Sound s → mayEnd s 5 [3] = false → Becomes (.checkerSelftestDone failed) s (begin s)) ∧
  (∀ s, Sound s → mayEnd s 7 [6] = false → Becomes .ledgerMount s (begin s)) ∧
  (∀ s fails, Sound s → mayEnd s 8 [7] = false → Becomes (.hbmTrained fails) s (begin s)) ∧
  (∀ s, Sound s → mayEnd s 9 [8] = false → Becomes .metadataInitialised s (begin s)) ∧
  (∀ s, Sound s → s.mgmt.state = .notReady → mayEnd s 10 [4, 6, 9] = false → Becomes .firmwareReady s (begin s)) ∧
  (∀ s expired, Sound s → mayEnd s 13 [12] = false → Becomes (.memoryPortSettle expired) s (begin s)) ∧
  (∀ s failed, Sound s → mayEnd s 14 [13] = false → s.pool.rebuilt = false → Becomes (.poolRebuild failed) s (begin s)) ∧
  (∀ s failed, mayEnd s 14 [13] = false → s.pool.rebuilt = true → s.clk.reset = none →
    ∃ t, exec (.poolRebuild failed) s = .next t ∧ t.pool.mapLost = [] ∧ t.pool.rebuilt = true)

/-! ## Training -/

/-- R29 to R33, R45, R394: training. A partner found begins DISCOVERY; the 1,024th good set on every lane kept begins CONFIG, where the lanes
kept are those that have reached marker lock and make a width of R32 (the moment is the model's: assumption 72), and a narrower width
is counted; the 16th matching set on every lane begins EQ at the lower of the two generations proposed, from its starting preset;
EQ_DONE on every lane begins VERIFY; VERIFY_PASS with 16 TS_READY enters ACTIVE with the pools of the configuration, but a port with usable keys
whose link would run in clear returns to DETECT; RETRAIN is entered with the partner and left with 16 TS_READY on every lane. A set of
another state, lane or type, one whose CRC fails, or one whose fields differ between lanes, changes nothing from CONFIG on. -/
def Obligations.TrainingAdvances : Prop :=
  let lnk := fun (s : State) (p : Fin 24) => (s.ports[p]).link
  let cnt := fun (s : State) (p : Fin 24) (i : Fin 4) => ((s.ports[p]).link.lanes[i]).count
  let clear := fun (s : State) (p : Fin 24) => holdsKeys (s.ports[p]).enc = true ∧ encrypts s p = false
  (∀ s p found, isOlk s p = true → (lnk s p).state = .detect → found ≠ 0 → 8 + p.val ∈ s.clk.pllLocked → algTakes (begin s) p = begin s →
    ((lnk s p).waitKeys = false ∨ phase0Usable (s.ports[p]).enc = true) →
    ∃ t, exec (.detectPoll p found) s = .next t ∧ (lnk t p).state = .discovery ∧ (lnk t p).laneMask = found ∧ (lnk t p).gen = 0 ∧
      (lnk t p).genCap = ownCap s p ∧ (∀ i : Fin 4, cnt t p i = 0) ∧ ∀ i : Fin 4, found.getLsbD i.val = true → ∃ b, .ts p b ∈ t.out ∧ tsByte b 4 = 1) ∧
  (∀ s p, Sound s → Becomes (.detectPoll p 0) s (begin s)) ∧
  (∀ s p (l : Fin 4) ts (m : BitVec 4), Sound s → (lnk s p).state = .discovery → tsGood ts 1 = true →
    (∀ i : Fin 4, m.getLsbD i.val = decide (i = l ∨ ((lnk s p).lanes[i]).locked = true)) →
    let full := ∀ i : Fin 4, (widthMask m).getLsbD i.val = true → 1024 ≤ (if i = l then cnt s p i + 1 else cnt s p i)
    (full → ∃ t, exec (.tsDisc p l ts) s = .next t ∧ (lnk t p).state = .config ∧ (lnk t p).laneMask = widthMask m ∧
      (lnk t p).partnerCap = BitVec.ofNat 3 (tsByte ts 6) ∧ stalGet t 7 p = stalGet s 7 p + b2n (widthMask m != 15)) ∧
    (¬ full → Becomes (.tsDisc p l ts) s (updLane (begin s) p l fun y => { y with count := y.count + 1, locked := true }))) ∧
  (widthMask 15 = 15 ∧ widthMask 7 = 3 ∧ widthMask 13 = 12 ∧ widthMask 10 = 2 ∧ widthMask 8 = 8) ∧
  (∀ s p (l : Fin 4) ts, Sound s → (lnk s p).state = .discovery → tsGood ts 1 = false →
    Becomes (.tsDisc p l ts) s (updLane (begin s) p l fun y => { y with count := 0 })) ∧
  (∀ s p (l : Fin 4) ts, (lnk s p).state = .config → (lnk s p).laneMask = 15 → tsGood ts 2 = true → tsByte ts 5 = l.val →
    tsDiffers (lnk s p) l ts = false → ((lnk s p).lanes[l]).seen = tsFields ts →
    15 ≤ cnt s p l → (∀ i : Fin 4, i ≠ l → 16 ≤ cnt s p i) → holdsKeys (s.ports[p]).enc = false → tsByte ts 8 % 16 = 15 → tsByte ts 7 ≠ 0 →
    let own := (sharedGens (lnk s p).genCap (BitVec.ofNat 3 (tsByte ts 6))).headD 0
    (own ≠ 0 → ∃ t, exec (.tsCfg p l ts) s = .next t ∧ (lnk t p).state = .eq ∧ (lnk t p).gen = min own (tsByte ts 7) ∧
      ∀ i : Fin 4, ((lnk t p).lanes[i]).preset = startPreset (min own (tsByte ts 7)) ∧ ((lnk t p).lanes[i]).done = false) ∧
    (own = 0 → ∃ t, exec (.tsCfg p l ts) s = .next t ∧ (lnk t p).state = .detect)) ∧
  (∀ s p (l : Fin 4) ts, (lnk s p).state = .eq → (lnk s p).laneMask.getLsbD l = true → tsGood ts 3 = true → tsByte ts 5 = l.val →
    tsDiffers (lnk s p) l ts = false →
    let x := lnk s p
    let y := x.lanes[l]
    let y1 := if tsByte ts 10 = 0xFF then y else askPreset x.gen (tsByte ts 10) y
    let y2 := if tsByte ts 11 % 64 = 0 then y1 else askStep x.gen (tsByte ts 11 % 64) y1
    let all := (lanesOf x.laneMask).all fun i => if i = l then y2.done || bitOf (tsByte ts 12) 2 else x.lanes[i].done
    ∃ t, exec (.tsEq p l ts) s = .next t ∧ (lnk t p).gen = x.gen ∧
      ((lnk t p).lanes[l]).cm1 = y2.cm1 ∧ ((lnk t p).lanes[l]).cp1 = y2.cp1 ∧ ((lnk t p).lanes[l]).cm2 = y2.cm2 ∧
      ((lnk t p).lanes[l]).status = y2.status ∧ (all = true → (lnk t p).state = .verify) ∧ (all = false → (lnk t p).state = .eq)) ∧
  (∀ s p, (lnk s p).state = .verify →
    (lanesCounted (lnk s p) (lnk s p).laneMask 16 = true → ¬ clear s p → ∃ t, exec (.verifyPass p) s = .next t ∧ (lnk t p).state = .active ∧
      (t.ports[p]).rx.pools = cfgPools s p ∧ (t.ports[p]).enc.on = encrypts s p) ∧
    (lanesCounted (lnk s p) (lnk s p).laneMask 16 = true → clear s p → ∃ t, exec (.verifyPass p) s = .next t ∧ (lnk t p).state = .detect) ∧
    (lanesCounted (lnk s p) (lnk s p).laneMask 16 = false → ∃ t, exec (.verifyPass p) s = .next t ∧ (lnk t p).state = .verify ∧ (lnk t p).passed = true)) ∧
  (∀ s p (l : Fin 4) ts, (lnk s p).laneMask = 15 → tsGood ts 4 = true → tsByte ts 5 = l.val → tsDiffers (lnk s p) l ts = false →
    ((lnk s p).lanes[l]).seen = tsFields ts → 15 ≤ cnt s p l → (∀ i : Fin 4, i ≠ l → 16 ≤ cnt s p i) →
    ((lnk s p).state = .verify → (lnk s p).passed = true → ¬ clear s p → ∃ t, exec (.tsReady p l ts) s = .next t ∧ (lnk t p).state = .active ∧
      (t.ports[p]).rx.pools = cfgPools s p) ∧
    ((lnk s p).state = .retrain → ∃ t, exec (.tsReady p l ts) s = .next t ∧ (lnk t p).state = .active ∧ (lnk t p).laneMask = 15 ∧
      (t.ports[p]).rx.eseq = (s.ports[p]).rx.eseq)) ∧
  (∀ s p (l : Fin 4) ts, Sound s → (lnk s p).state = .active → (lnk s p).laneMask.getLsbD l = true → tsGood ts 5 = true → tsByte ts 5 = l.val →
    ∃ t, exec (.tsRetrain p l ts) s = .next t ∧ (lnk t p).state = .retrain ∧ ((lnk t p).lanes[l]).done = true ∧ stalGet t 7 p = stalGet s 7 p + 1 ∧
      (t.ports[p]).rx = (s.ports[p]).rx) ∧
  (∀ s p (l : Fin 4) ts, Sound s → (tsByte ts 5 ≠ l.val ∨ tsGood ts 2 = false ∨ tsDiffers (lnk s p) l ts = true ∨ (lnk s p).state ≠ .config) →
    Becomes (.tsCfg p l ts) s (begin s)) ∧
  (∀ s p (l : Fin 4) ts, Sound s → (tsByte ts 5 ≠ l.val ∨ tsGood ts 3 = false ∨ tsDiffers (lnk s p) l ts = true ∨ (lnk s p).state ≠ .eq) →
    Becomes (.tsEq p l ts) s (begin s)) ∧
  (∀ s p (l : Fin 4) ts, Sound s → (tsByte ts 5 ≠ l.val ∨ tsGood ts 4 = false ∨ tsDiffers (lnk s p) l ts = true ∨
    ((lnk s p).state ≠ .verify ∧ (lnk s p).state ≠ .retrain)) → Becomes (.tsReady p l ts) s (begin s)) ∧
  (∀ s p (l : Fin 4) ts, Sound s → (tsByte ts 5 ≠ l.val ∨ tsGood ts 5 = false ∨ (tsDiffers (lnk s p) l ts = true ∧ (lnk s p).state = .retrain) ∨
    ((lnk s p).state ≠ .active ∧ (lnk s p).state ≠ .retrain)) → Becomes (.tsRetrain p l ts) s (begin s))

/-- R33, Table LNK-5: equalisation. Whatever is asked, a lane's taps stay in their ranges with c0 of at least one half; a step is applied whole or
not at all, and a preset that the generation does not have is refused and changes no tap; after 8 presets and 128 steps nothing is
applied. The home itself asks at most 8 presets and 128 steps, each of them one that the generation has (which ones is left open:
assumption 73). -/
def Obligations.EqualisationKeepsTheTapsInRange : Prop :=
  let fits := fun (y : LaneEq) => -16 ≤ y.cm1 ∧ y.cm1 ≤ 0 ∧ -24 ≤ y.cp1 ∧ y.cp1 ≤ 0 ∧ 0 ≤ y.cm2 ∧ y.cm2 ≤ 8 ∧ 32 ≤ 64 - y.cm2 + y.cm1 + y.cp1
  let same := fun (y z : LaneEq) => z.cm1 = y.cm1 ∧ z.cp1 = y.cp1 ∧ z.cm2 = y.cm2
  (∀ gen n y, fits y → fits (askPreset gen n y)) ∧ (∀ gen cmd y, fits y → fits (askStep gen cmd y)) ∧
  (∀ gen n y, y.presetReqs < 8 → (9 < n ∨ (7 < n ∧ gen ≠ 3)) → same y (askPreset gen n y) ∧ (askPreset gen n y).status = 2) ∧
  (∀ gen n y, y.presetReqs < 8 → n ≤ 9 → (7 < n → gen = 3) →
    ((askPreset gen n y).cm2, (askPreset gen n y).cm1, (askPreset gen n y).cp1) = presetTaps n ∧ (askPreset gen n y).status = 0) ∧
  (∀ gen cmd y, y.stepReqs < 128 → bits cmd 5 4 ≠ 0 → gen ≠ 3 → same y (askStep gen cmd y) ∧ (askStep gen cmd y).status = 2) ∧
  (∀ gen y, fits y → y.stepReqs < 128 → y.cm1 = -16 → same y (askStep gen 1 y) ∧ (askStep gen 1 y).status = 1) ∧
  (∀ gen y, fits y → y.stepReqs < 128 → y.cm1 < 0 → (askStep gen 2 y).cm1 = y.cm1 + 1 ∧ (askStep gen 2 y).status = 0) ∧
  (∀ gen cmd y, same y (askStep gen cmd y) ∨ ((askStep gen cmd y).status = 0 ∧ (askStep gen cmd y).cm1 = y.cm1 + tapStep (cmd % 4) (-1) ∧
    (askStep gen cmd y).cp1 = y.cp1 + tapStep (bits cmd 3 2) (-1) ∧ (askStep gen cmd y).cm2 = y.cm2 + tapStep (bits cmd 5 4) 1)) ∧
  (∀ gen n y, (8 ≤ y.presetReqs → askPreset gen n y = y) ∧ (128 ≤ y.stepReqs → askStep gen n y = y)) ∧
  (∀ gen want what y, y.askedPresets ≤ 8 → y.askedSteps ≤ 128 →
    let z := nextAsk gen want what y
    z.askedPresets ≤ 8 ∧ z.askedSteps ≤ 128 ∧ same y z ∧ (z.askPreset = 0xFF ∨ z.askPreset < 8 ∨ (z.askPreset < 10 ∧ gen = 3)) ∧ z.askCmd < 64 ∧
    (gen ≠ 3 → z.askCmd < 16) ∧ z.askCmd % 4 ≠ 3 ∧ bits z.askCmd 3 2 ≠ 3 ∧ (y.ownDone = true → z.askPreset = 0xFF ∧ z.askCmd = 0 ∧ z.ownDone = true))

/-- R29, R31, R46, R57, R189: training that fails, links that go down, and MAINT. DISCOVERY and CONFIG time out to DETECT, EQ and VERIFY to EQ at the next
lower generation both sides still advertise, or to DETECT when none remains; a RETRAIN that times out and a loss of signal take the link
down, which clears the replay buffer, the sequence numbers and the credits of both sides; a loss of signal while the port trains returns
it to DETECT; a drained port enters MAINT for PORT_MAINT, one that is not drained does not, and a calibration that ends leaves it there and
completes its PORT_CALIBRATE. -/
def Obligations.TrainingFailsAndLinksGoDown : Prop :=
  let lnk := fun (s : State) (p : Fin 24) => (s.ports[p]).link
  (∀ s p, (lnk s p).state = .discovery → ∃ t, exec (.discoveryTimeout p) s = .next t ∧ (lnk t p).state = .detect ∧ ∀ q, q ≠ p → t.ports[q] = s.ports[q]) ∧
  (∀ s p, (lnk s p).state = .config → ∃ t, exec (.configTimeout p) s = .next t ∧ (lnk t p).state = .detect ∧ ∀ q, q ≠ p → t.ports[q] = s.ports[q]) ∧
  (∀ s p c, ((lnk s p).state = .eq ∧ c = Instr.eqTimeout p) ∨ ((lnk s p).state = .verify ∧ c = Instr.verifyTimeout p) →
    let x := lnk s p
    let own := if holdsKeys (s.ports[p]).enc then dropGen x.genCap x.gen &&& 4 else dropGen x.genCap x.gen
    let lower := (sharedGens own (dropGen x.partnerCap x.gen)).filter (· < x.gen)
    (∀ g gs, lower = g :: gs → ∃ t, exec c s = .next t ∧ (lnk t p).state = .eq ∧ (lnk t p).gen = g ∧ (lnk t p).genCap = dropGen x.genCap x.gen ∧
      ∀ i : Fin 4, ((lnk t p).lanes[i]).preset = startPreset g) ∧
    (lower = [] → ∃ t, exec c s = .next t ∧ (lnk t p).state = .detect)) ∧
  (∀ s p, (lnk s p).state = .retrain → Becomes (.retrainTimeout p) s (kept s (linkDown (begin s) p .detect))) ∧
  (∀ s p, isOlk s p = true → ((lnk s p).state = .active ∨ (lnk s p).state = .retrain) →
    Becomes (.lossOfSignal p) s (kept s (linkDown (begin s) p .detect))) ∧
  (∀ s p, isOlk s p = false → (s.ports[p]).cxl.up = true → Becomes (.lossOfSignal p) s (kept s (linkDown (begin s) p .disabled))) ∧
  (∀ s p, Sound s → isOlk s p = true → ((lnk s p).state = .maint ∨ (lnk s p).state = .detect) → Becomes (.lossOfSignal p) s (begin s)) ∧
  (∀ s p, Sound s → isOlk s p = true →
    ((lnk s p).state = .discovery ∨ (lnk s p).state = .config ∨ (lnk s p).state = .eq ∨ (lnk s p).state = .verify) →
    Becomes (.lossOfSignal p) s (toDetect (begin s) p) ∧ (lnk (toDetect (begin s) p) p).state = .detect) ∧
  (∀ s p st, let x := (clearLink s p st).ports[p]
    x.link.state = st ∧ x.tx.replay = [] ∧ x.tx.nextSeq = 0 ∧ x.rx.eseq = 0 ∧ x.tx.avail = {} ∧ x.rx.due = {} ∧ x.rx.initSeen = false ∧
    x.rx.bindSeen = false ∧ x.enc.on = false ∧ x.enc.tx0 = none ∧ x.enc.rx0 = none ∧ x.epoch = (s.ports[p]).epoch ∧
    (x.link.waitKeys = ((lnk s p).waitKeys || (s.ports[p]).enc.on))) ∧
  (∀ s (p : Fin 24), maintDrains s p = true → portDrained s p = true → (lnk s p).state ≠ .retrain → Becomes (.maintEntry p) s (kept s (enterMaint (begin s) p))) ∧
  (∀ s (p : Fin 24), Sound s → (maintDrains s p = false ∨ portDrained s p = false) → Becomes (.maintEntry p) s (begin s)) ∧
  (∀ s p, Sound s → (lnk s p).calRunning = true → (∀ w ∈ s.mgmt.works, w.op ≠ 0x0302 ∧ w.op ≠ 0x0301) →
    Becomes (.calibrationDone p) s (updLink (begin s) p fun x => { x with calRunning := false })) ∧
  (∀ s p w, Sound s → (lnk s p).calRunning = true → s.mgmt.works = [w] → w.op = 0x0302 → w.arg0 = p.val → w.arg1 = 0 → w.responded = false →
    Becomes (.calibrationDone p) s (respond { updLink (begin s) p fun x => { x with calRunning := false } with mgmt := { s.mgmt with works := [] } }
      w.via w.op w.cookie w.relayId (ownIndex s) replyOk))

/-! ## The link -/

/-- R41 to R44, R48 to R52, R78, R260: credits and acknowledgement. The partner's CREDIT_INIT gives the credits of the channels on which the home sends, a second one
or one below the minimum takes the link down; credits returned are added, on another channel a protocol error; the home's audit names every
channel it sends on, once 4,096 flits have been sent, or waits for room in the replay buffer; one of the partner's that holds changes
nothing, one that does not takes the link down, or contains the device when its own counts do not hold; credits due are returned once.
An ACK frees what precedes it, a NAK replays; a transmitter without progress replays, and retrains after four; an acknowledgement is
sent when its timer ends. -/
def Obligations.CreditsAndAcknowledgements : Prop :=
  let up := fun (s : State) (p : Fin 24) => isOlk s p = true ∧ portActive s p = true
  (∀ s p slot, Sound s → up s p → (s.ports[p]).rx.initSeen = false → Quiet (s.ports[p]) →
    (if isMem s p then 40 ≤ (slotCounts slot).mem else 16 ≤ (slotCounts slot).snp ∧ 40 ≤ (slotCounts slot).cmp) →
    let c := sendOnly s p (slotCounts slot)
    Becomes (.creditInit p slot) s ((begin s).updPort p fun x => { x with
      rx := { x.rx with initSeen := true }, tx := { x.tx with pools := c, avail := c } }) ∧
    (isMem s p = true → c = { mem := (slotCounts slot).mem }) ∧
    (isMem s p = false → c = { snp := (slotCounts slot).snp, cmp := (slotCounts slot).cmp })) ∧
  (∀ s p slot, up s p → ((s.ports[p]).rx.initSeen = true ∨ (if isMem s p then (slotCounts slot).mem < 40 else (slotCounts slot).snp < 16 ∨ (slotCounts slot).cmp < 40)) →
    Becomes (.creditInit p slot) s (kept s (linkDown (begin s) p .detect))) ∧
  (∀ s p slot, Sound s → up s p → Quiet (s.ports[p]) → sendOnly s p (slotCounts slot) = slotCounts slot →
    let c := slotCounts slot
    Becomes (.creditReturn p slot) s ((begin s).updPort p fun x => { x with tx := { x.tx with
      avail := vcSum x.tx.avail c, retRcvd := vcSum x.tx.retRcvd c, shRetRcvd := vcSum x.tx.shRetRcvd c } })) ∧
  (∀ s p slot, up s p → sendOnly s p (slotCounts slot) ≠ slotCounts slot → Becomes (.creditReturn p slot) s (kept s (linkDown (begin s) p .detect))) ∧
  (∀ s p slot, up s p → let v := leAt slot 1 1
    ((5 < v ∨ partnerSends s p v = false) → Becomes (.creditAudit p slot) s (kept s (linkDown (begin s) p .detect))) ∧
    (v ≤ 5 → partnerSends s p v = true → auditHolds (s.ports[p]) v slot = true → Becomes (.creditAudit p slot) s (kept s (begin s))) ∧
    (v ≤ 5 → partnerSends s p v = true → auditHolds (s.ports[p]) v slot = false → vcHolds s p v = true →
      Becomes (.creditAudit p slot) s (kept s (portFault (begin s) p v))) ∧
    (v ≤ 5 → partnerSends s p v = true → auditHolds (s.ports[p]) v slot = false → vcHolds s p v = false →
      Becomes (.creditAudit p slot) s (kept s (settleFault (begin s) (contain (begin s) (faultCode 0x01 1 p v)))))) ∧
  (∀ s p, flowing s p = true → replayRoom (s.ports[p]) 1 = true → (s.ports[p]).link.draining = false → (s.ports[p]).rx.due ≠ {} →
    ∃ t, exec (.creditReturnTimer p) s = .next t ∧ (t.ports[p]).rx.due = {} ∧ (t.ports[p]).rx.retSent = vcSum (s.ports[p]).rx.retSent (s.ports[p]).rx.due ∧
      (s.ports[p]).tx.replay.length < (t.ports[p]).tx.replay.length) ∧
  (∀ s p, Sound s → (s.ports[p]).rx.due = {} → Becomes (.creditReturnTimer p) s (begin s)) ∧
  (∀ s p, flowing s p = true → (s.ports[p]).rx.initSeen = true → 4096 ≤ (s.ports[p]).tx.flits →
    (replayRoom (s.ports[p]) 2 = true → (s.ports[p]).link.fromVerify = false → (s.ports[p]).enc.on = false → Quiet (s.ports[p]) →
      (s.ports[p]).rx.unacked = 0 →
      ∃ t, exec (.creditAuditDue p) s = .next t ∧ (t.ports[p]).tx.flits ≤ (s.ports[p]).tx.flits - 4096 + 2 ∧ (t.ports[p]).tx.auditDue = false ∧
        ∃ f ∈ (t.ports[p]).tx.replay, f.slots = ((List.range 6).filter (homeSends s p)).map (auditSlot (s.ports[p]))) ∧
    (replayRoom (s.ports[p]) 1 = false → Sound s → Becomes (.creditAuditDue p) s
      ((begin s).updPort p fun x => { x with tx := { x.tx with flits := x.tx.flits - 4096, auditDue := true } }))) ∧
  (∀ s p, Sound s → (s.ports[p]).tx.flits < 4096 → Becomes (.creditAuditDue p) s (begin s)) ∧
  (∀ s p seq, Sound s → up s p → Quiet (s.ports[p]) → Becomes (.ackNak p false seq) s (ackTo (begin s) p (seq % 1024))) ∧
  (∀ s p seq f fs, up s p → Quiet (s.ports[p]) → ((ackTo s p (seq % 1024)).ports[p]).tx.replay = f :: fs → f.seq < 1024 →
    let n := ((ackTo s p (seq % 1024)).ports[p]).tx.replays
    (n < 4 → ∃ t, exec (.ackNak p true seq) s = .next t ∧ (t.ports[p]).tx.replays = n + 1 ∧ (t.ports[p]).tx.replay = f :: fs ∧
      ∃ lanes, .flit p (encodeFlit (s.ports[p]).link.gen f.seq true f.cont f.phase f.slots) lanes ∈ t.out) ∧
    (4 ≤ n → ∃ t, exec (.ackNak p true seq) s = .next t ∧ (t.ports[p]).link.state = .retrain)) ∧
  (∀ s p seq f, f ∈ ((ackTo s p seq).ports[p]).tx.replay ↔ f ∈ (s.ports[p]).tx.replay ∧ ¬(0 < (seq + 1024 - f.seq) % 1024 ∧ (seq + 1024 - f.seq) % 1024 ≤ 512)) ∧
  (∀ s p f fs, up s p → Quiet (s.ports[p]) → (s.ports[p]).tx.replay = f :: fs → f.seq < 1024 →
    ((s.ports[p]).tx.replays < 4 → ∃ t, exec (.replayTimeout p) s = .next t ∧ (t.ports[p]).tx.replays = (s.ports[p]).tx.replays + 1 ∧
      (t.ports[p]).tx.replay = f :: fs ∧ ∃ lanes, .flit p (encodeFlit (s.ports[p]).link.gen f.seq true f.cont f.phase f.slots) lanes ∈ t.out) ∧
    (4 ≤ (s.ports[p]).tx.replays → ∃ t, exec (.replayTimeout p) s = .next t ∧ (t.ports[p]).link.state = .retrain)) ∧
  (∀ s p, Sound s → (s.ports[p]).tx.replay = [] → Becomes (.replayTimeout p) s (begin s)) ∧
  (∀ s p, portActive s p = true → Quiet (s.ports[p]) → 0 < (s.ports[p]).rx.unacked → ∃ t lanes, exec (.ackTimer p) s = .next t ∧
    (t.ports[p]).rx.unacked = 0 ∧ (t.ports[p]).rx.eseq = (s.ports[p]).rx.eseq ∧
    t.out = [.flit p (encodeFlit (s.ports[p]).link.gen (s.ports[p]).tx.nextSeq false 0 ((s.ports[p]).enc.on && (s.ports[p]).tx.phase)
      [ackSlot (s.ports[p]).rx.eseq false]) lanes])

/-- R27, R29, R38, R39, R43, R56: flits received. The bytes of the lanes are descrambled. A flit of the wrong length, one that does not decode, or
one whose CRC or reserved bit is wrong is a flit error: it is counted and answered with a NAK for ESEQ, at most once in 3 us, and accepts
nothing; a sequenced flit numbered ESEQ is accepted, a duplicate is discarded silently, one ahead of ESEQ is answered with a NAK. In VERIFY good
flits are counted, and a bad one begins the count again. A MAC slot on a link in clear, or a MAC that does not check, takes the link
down; one that checks delivers its run. -/
def Obligations.FlitsAreAcceptedInOrder : Prop :=
  let up := fun (s : State) (p : Fin 24) => isOlk s p = true ∧ portActive s p = true
  let x := fun (s : State) (p : Fin 24) => s.ports[p]
  let eseq := fun (s : State) (p : Fin 24) => (s.ports[p]).rx.eseq
  let fixed := fun (s : State) (p : Fin 24) (n : Nat) => if n = 0 then s else countEv s 0x0205 p {} n
  (∀ s p bytes, let u := unscramble (begin s) p bytes
    u.1 = (scrambleFlit (activeLanes (x s p).link.laneMask).length (x s p).rx.scr bytes).1 ∧
    u.2 = (begin s).updPort p fun y => { y with rx := { y.rx with
      scr := (scrambleFlit (activeLanes (x s p).link.laneMask).length (x s p).rx.scr bytes).2 } }) ∧
  (∀ s p bytes, up s p → let u := unscramble (begin s) p bytes
    (bytes.length ≠ flitLen (x s p).link.gen → Becomes (.flitReceived p bytes) s (kept s (flitError (begin s) p))) ∧
    (bytes.length = flitLen (x s p).link.gen → fecDecode (x s p).link.gen u.1 = none → Becomes (.flitReceived p bytes) s (kept s (flitError u.2 p)))) ∧
  (∀ s p, Quiet (x s p) → let t := flitError s p
    t = sendNak (countEv s 0x0204 p) p ∧ eseq t p = eseq s p ∧ (x t p).rx.nakWait = true ∧ (x t p).rx.owed = (x s p).rx.owed ∧
    ((x s p).rx.nakAt = none → ∃ lanes, t.out = s.out ++
      [.flit p (encodeFlit (x s p).link.gen (x s p).tx.nextSeq false 0 ((x s p).enc.on && (x s p).tx.phase) [ackSlot (eseq s p) true]) lanes]) ∧
    (∀ c, (x s p).rx.nakAt = some c → s.obs.cycles < c + 6000 → t.out = s.out)) ∧
  (∀ s p bytes w n, up s p → bytes.length = flitLen (x s p).link.gen →
    let u := unscramble (begin s) p bytes
    fecDecode (x s p).link.gen u.1 = some (w, n) →
    let g := (x s p).link.gen
    let data := w.take (2 + 18 * slotsPerFlit g)
    let hdr := leAt w 0 2
    let s0 := fixed u.2 p n
    let crc := (w.drop data.length).take (if g = 1 then 6 else 8) = flitCrc g data
    (¬ crc ∨ bitOf hdr 15 = true → Becomes (.flitReceived p bytes) s (kept s (flitError s0 p))) ∧
    (crc → bitOf hdr 15 = false → bitOf hdr 10 = true →
      (hdr % 1024 = eseq s p → Becomes (.flitReceived p bytes) s (kept s (acceptFlit s0 p w (bits hdr 13 11) (flitSlots g w)))) ∧
      (hdr % 1024 ≠ eseq s p → (eseq s p + 1024 - hdr % 1024) % 1024 ≤ 512 → Becomes (.flitReceived p bytes) s (kept s s0)) ∧
      (hdr % 1024 ≠ eseq s p → 512 < (eseq s p + 1024 - hdr % 1024) % 1024 → Becomes (.flitReceived p bytes) s (kept s (sendNak s0 p)))) ∧
    (crc → bitOf hdr 15 = false → bitOf hdr 10 = false →
      Becomes (.flitReceived p bytes) s (kept s (takeIdle s0 p (hdr % 1024) (bits hdr 13 11) (flitSlots g w))))) ∧
  (∀ s p bytes w n, isOlk s p = true → (x s p).link.state = .verify → bytes.length = flitLen (x s p).link.gen →
    let g := (x s p).link.gen
    let u := unscramble (begin s) p bytes
    (goodFlit g u.1 = none → ∃ t, exec (.flitReceived p bytes) s = .next t ∧ (x t p).link.state = .verify ∧ (x t p).link.verifyRun = 0) ∧
    (goodFlit g u.1 = some (w, n) → (x s p).link.passed = false → (x s p).link.verifyRun + 1 < 2 ^ 18 →
      ∃ t, exec (.flitReceived p bytes) s = .next t ∧ (x t p).link.state = .verify ∧ (x t p).link.passed = false ∧
        (x t p).link.verifyRun = (x s p).link.verifyRun + 1 ∧ (x t p).link.verifyFixed = (x s p).link.verifyFixed + n) ∧
    (goodFlit g u.1 = some (w, n) → (x s p).link.verifyRun + 1 = 2 ^ 18 → (x s p).link.verifyFixed + n = 0 →
      lanesCounted (x s p).link (x s p).link.laneMask 16 = false →
      ∃ t, exec (.flitReceived p bytes) s = .next t ∧ (x t p).link.state = .verify ∧ (x t p).link.passed = true)) ∧
  (∀ s p w cont, up s p → Quiet (x s p) → (x s p).enc.on = false → (x s p).rx.owed = 0 → cont = 0 → (x s p).rx.unacked < 31 →
    let t := acceptFlit s p w cont [List.replicate 18 0]
    eseq t p = (eseq s p + 1) % 1024 ∧ (x t p).rx.unacked = (x s p).rx.unacked + 1 ∧ (x t p).rx.nakWait = false ∧ t.out = s.out) ∧
  (∀ s p w cont, up s p → (x s p).enc.on = false → (x s p).rx.owed ≠ cont → (x s p).rx.unacked < 31 → ∃ u,
    acceptFlit s p w cont [] = (if portActive (protocolError u p) p && decide (32 ≤ ((protocolError u p).ports[p]).rx.unacked) then
      sendAckNow (protocolError u p) p else protocolError u p) ∧ eseq u p = (eseq s p + 1) % 1024) ∧
  (∀ s p slot, up s p → (x s p).enc.on = false → Becomes (.mac p slot) s (kept s (linkDown (begin s) p .detect))) ∧
  (∀ s p slot k, up s p → (x s p).enc.on = true → keyOf (x s p).enc true (x s p).rx.phase = some k →
    let good := (x s p).rx.runFlits = 8 ∧ bitOf (leAt slot 1 1) 0 = (x s p).rx.phase ∧
      (slot.drop 2).take 16 = padTo 16 (Config.macTag (x s p).enc.algInForce k.key (runIv k (x s p).rx.run) 8 (x s p).rx.runCipher)
    (good → Becomes (.mac p slot) s (kept s (deliverRun p 8 (x s p).rx.runHeld ((begin s).updPort p fun y => { y with rx := { y.rx with
      runHeld := [], runCipher := [], runFlits := 0, run := (x s p).rx.run + 1 } })))) ∧
    (¬good → Becomes (.mac p slot) s (kept s (linkDown (logClass (begin s) 0x42 1 p) p .detect))))

/-- R54, R55, R63, R164: binding. A BIND_REQ of one to eight IDs, once in a link-up of a peer port, is answered with one BIND_ACK: every ID is checked in its
place, those accepted become active, and no other entry of the binding table changes; a second one, one on a memory port or one that
names no ID or more than eight takes the link down. A MOD_DESC offers its module, once in a link-up of a memory port. -/
def Obligations.PortsBind : Prop :=
  let up := fun (s : State) (p : Fin 24) => isOlk s p = true ∧ portActive s p = true
  (∀ s p slot, up s p → (isMem s p = true ∨ (s.ports[p]).rx.bindSeen = true ∨ leAt slot 1 1 = 0 ∨ 8 < leAt slot 1 1) →
    Becomes (.bindReq p slot) s (kept s (linkDown (begin s) p .detect))) ∧
  (∀ s p slot, up s p → isMem s p = false → (s.ports[p]).rx.bindSeen = false → 0 < leAt slot 1 1 → leAt slot 1 1 ≤ 8 →
    let n := leAt slot 1 1
    let id := fun i => leAt slot (2 + i) 1
    let why := fun i => bindReason s p (id i) (bitOf (leAt slot 10 1) i) (decide (∃ j, j < i ∧ id j = id i))
    ∃ t, exec (.bindReq p slot) s = .next t ∧ (t.ports[p]).rx.bindSeen = true ∧ (t.ports[p]).rx.tagLimit = leAt slot 16 2 % 4096 + 1 ∧
      (t.ports[p]).rx.tsEnabled = (bitOf (leAt slot 15 1) 0 && s.dom.timeValid) ∧
      (∀ i, i < n → why i = 0 → ∃ h : id i < 256, (t.binds[id i]).status = .active ∧ (t.binds[id i]).failed = false ∧
        (t.binds[id i]).epoch = (s.binds[id i]).epoch) ∧
      ∀ a : Fin 256, (∀ i, i < n → why i = 0 → id i ≠ a.val) → t.binds[a] = s.binds[a]) ∧
  (∀ s p a caching, bindReason s p a caching true = 3 ∧ (a = 255 → bindReason s p a caching false = 1) ∧
    (bindPort s a ≠ some p → (s.bind a).status ≠ .active → bindReason s p a caching false = 1) ∧
    (a ≠ 255 → bindPort s a ≠ some p → (s.bind a).status = .active → bindReason s p a caching false = 3) ∧
    (a ≠ 255 → bindPort s a = some p → (s.bind a).status ≠ .disowning → ¬(bindRole s a = 1 ↔ caching = true) → bindReason s p a caching false = 2) ∧
    (a ≠ 255 → bindPort s a = some p → (s.bind a).status = .withdrawn → (bindRole s a = 1 ↔ caching = true) →
      bindRole s a ≠ 0 → bindReason s p a caching false = 1) ∧
    (a ≠ 255 → bindPort s a = some p → (s.bind a).status = .idle → (bindRole s a = 1 ↔ caching = true) →
      bindRole s a ≠ 0 → bindReason s p a caching false = 0)) ∧
  (∀ s p slot, up s p → (isMem s p = false ∨ (s.ports[p]).rx.bindSeen = true) → Becomes (.modDesc p slot) s (kept s (linkDown (begin s) p .detect))) ∧
  (∀ s p slot, up s p → isMem s p = true → (s.ports[p]).rx.bindSeen = false →
    let s1 := (begin s).updPort p fun x => { x with rx := { x.rx with bindSeen := true } }
    let r := offerModule s1 p (descOf slot)
    Becomes (.modDesc p slot) s (kept s (settleAll (placeCtl r.1 p (bindAck r.1 p (b2n r.2) [] 0)))))

/-! ## Commits -/

/-- R289 to R291, R298: the commit of a device. A drain that has ended arms the window; the window applies every staged value, and only staged values
change; a drain that times out releases its holds and applies nothing; an idle transaction is rolled back with its notification, and a
follow-up that has ended is reported; a command at its limit completes with TIMEOUT, and its work goes on where its row says so. -/
def Obligations.DeviceCommits : Prop :=
  (∀ s t, Sound s → s.mgmt.txn = some t → t.phase = .draining → drained s t.staged = true →
    Becomes .drainDone s { begin s with mgmt := { s.mgmt with txn := some { t with phase := .armed } } }) ∧
  (∀ s, Sound s → (∀ t, s.mgmt.txn = some t → t.phase ≠ .draining ∨ drained s t.staged = false) → Becomes .drainDone s (begin s)) ∧
  (∀ s t, s.mgmt.txn = some t → t.phase = .armed →
    let v := tryPrepare (commitEnds (addFollowUp (noteCommitted (applyAll (begin s) t.staged)) (followUpOf s t.id t.staged)) replyOk)
    Becomes .commitWindow s (kept s (settleAll (pausedCycles 8 (applyCache (windowDomain v)))))) ∧
  (∀ s staged key index, (∀ e ∈ staged, e.key ≠ keyPersonality) →
    cfgGet (applyAll s staged) key index = cfgLookup (staged.foldl cfgPut s.mgmt.cfg) key index) ∧
  (∀ cfg e key index, cfgLookup (cfgPut cfg e) key index = if key = e.key ∧ index = e.index then e.value else cfgLookup cfg key index) ∧
  (∀ s, Sound s → windowDue s = false → Becomes .commitWindow s (begin s)) ∧
  (∀ s n, s.clk.reset = none → (pausedCycles n s).obs.cycles = s.obs.cycles + n) ∧
  (∀ s t, s.mgmt.txn = some t → t.phase = .draining → Becomes .drainTimeout s
    (kept s (settleAll (tryPrepare (commitEnds (releaseDrain (begin s) t.staged) { status := stTimeout }))))) ∧
  (∀ s staged key index, cfgGet (releaseDrain s staged) key index = cfgGet s key index) ∧
  (∀ s, Sound s → (∀ t, s.mgmt.txn = some t → t.phase ≠ .draining) → Becomes .drainTimeout s (begin s)) ∧
  (∀ s t, Sound s → s.mgmt.txn = some t → t.phase = .open → workRuns s [0x0203] = false → s.mgmt.state = .running →
    Becomes .txnIdleTimeout s { begin s with mgmt := { s.mgmt with txn := none } } ∧
    Notes .txnIdleTimeout s { ntype := 6, arg := 1 + stTimeout * 2 ^ 8, word := some t.id }) ∧
  (∀ s t, Sound s → s.mgmt.txn = some t → (t.phase ≠ .open ∨ workRuns s [0x0203] = true ∨ s.mgmt.state ≠ .running) →
    Becomes .txnIdleTimeout s (begin s)) ∧
  (∀ s f, Sound s → s.mgmt.followUps.find? (followUpEnded s) = some f →
    Becomes .followUpDone s { begin s with mgmt := { s.mgmt with followUps := removeFirst f s.mgmt.followUps } } ∧
    Notes .followUpDone s { ntype := 6, arg := 2, word := some f.txn }) ∧
  (∀ s via w ws, Sound s → s.mgmt.works = w :: ws → w.via = via → w.responded = false → w.op ≠ 0x0413 →
    (continues w.op = true → Becomes (.commandLimitExpiry via) s
      (respond (updWork (begin s) w { w with responded := true }) w.via w.op w.cookie w.relayId (ownIndex s) { status := stTimeout })) ∧
    (w.op = 0x0301 → w.arg1 = 0 → w.arg0 < 24 → ∃ t, exec (.commandLimitExpiry via) s = .next t ∧ t.mgmt.works = ws ∧
      ∀ p : Fin 24, p.val = w.arg0 → (t.ports[p]).link.draining = false) ∧
    (w.op = 0x0302 → Becomes (.commandLimitExpiry via) s
      (respond { begin s with mgmt := { s.mgmt with works := ws } } w.via w.op w.cookie w.relayId (ownIndex s) { status := stTimeout }))) ∧
  (∀ s via, Sound s → (∀ w ∈ s.mgmt.works, w.via ≠ via ∨ w.responded = true ∨ w.op = 0x0413) → Becomes (.commandLimitExpiry via) s (begin s))

/-- R293 to R295: the domain commit. A secondary assembles the image, fragment by fragment, and votes: no for one whose CRC fails, that is not whole in time or that fails
a rule, yes as it becomes PREPARED, and it stays PREPARED until the decision: an abort discards the image, an unknown COMMIT_ID is answered
with RESULT 2, a repeated decision is acknowledged again. The primary decides commit once every vote is yes and abort when one is no or
missing, writing the decision to the ledger before it sends it; each acknowledgement is noted, and the decision is repeated until the last. -/
def Obligations.DomainCommits : Prop :=
  let toMe := fun (typ : Nat) (f : RingFrame) (s : State) => Arrives typ f s ∧ s.dom.index = some f.dst ∧ f.dst ≠ 0xFF
  let id := fun (f : RingFrame) => leAt f.payload 0 2
  let joins := fun (f : RingFrame) (s : State) =>
    leAt f.payload 2 2 = 0 ∨ (0 < leAt f.payload 2 2 ∧ leAt f.payload 2 2 * 8 = s.dom.image.length ∧ id f = s.dom.imageId)
  let joined := fun (f : RingFrame) (s : State) => (if leAt f.payload 2 2 = 0 then [] else s.dom.image) ++ f.payload.drop 8
  (∀ s f, Sound s → toMe 0x20 f s → isPrimary s = false → s.dom.prepared = none → s.dom.imageWhole = false → s.mgmt.state = .running →
    joins f s → bitOf (leAt f.payload 6 1) 0 = false →
    Becomes (.commitPrepare f) s { begin s with dom := { s.dom with image := joined f s, imageId := id f } }) ∧
  (∀ s f, Sound s → toMe 0x20 f s → ¬ joins f s → Becomes (.commitPrepare f) s (begin s)) ∧
  (∀ s f, Sound s → toMe 0x20 f s → isPrimary s = false → s.dom.prepared = none → s.dom.imageWhole = false → s.mgmt.state = .running →
    joins f s → bitOf (leAt f.payload 6 1) 0 = true → commitRuns s = false →
    let bs := joined f s
    let body := bs.take (bs.length - 8)
    let base := { begin s with dom := { s.dom with image := [], imageId := id f } }
    let staged := imageEntries body.length body
    ((bs.length < 8 ∨ leAt bs (bs.length - 8) 8 ≠ crc64 body) → Becomes (.commitPrepare f) s (sendVote base (id f) (some (0, 0, 0)))) ∧
    (8 ≤ bs.length → leAt bs (bs.length - 8) 8 = crc64 body → ∀ x, validate base staged = some x →
      Becomes (.commitPrepare f) s (sendVote base (id f) (some x))) ∧
    (8 ≤ bs.length → leAt bs (bs.length - 8) 8 = crc64 body → validate base staged = none →
      Becomes (.commitPrepare f) s (sendVote { base with dom := { base.dom with prepared := some (id f, staged) } } (id f) none))) ∧
  (∀ s f p, Sound s → toMe 0x20 f s → s.dom.prepared = some p → Becomes (.commitPrepare f) s (begin s)) ∧
  (∀ s, Sound s → s.dom.image ≠ [] → s.dom.imageWhole = false →
    Becomes .prepareFragmentTimeout s (sendVote { begin s with dom := { s.dom with image := [], imageWhole := false } } s.dom.imageId (some (0, 0, 0)))) ∧
  (∀ s, Sound s → s.dom.image = [] → Becomes .prepareFragmentTimeout s (begin s)) ∧
  (∀ s f staged, Sound s → toMe 0x22 f s → s.dom.prepared = some (id f, staged) → s.dom.deciding = none →
    (leAt f.payload 2 1 = 0 → Becomes (.commitDecide f) s (kept s (settleAll (startDrain { begin s with dom := { s.dom with deciding := some (id f, leAt f.payload 8 8) } } staged)))) ∧
    (leAt f.payload 2 1 ≠ 0 → s.mgmt.txn = none → s.dom.imageWhole = false →
      Becomes (.commitDecide f) s { begin s with dom := { s.dom with prepared := none, decided := some (id f, false) },
                                                 out := [ringFrame 0x23 0 (s.dom.index.getD 0xFE) 0 (leBytes 2 (id f) ++ leBytes 1 1)] })) ∧
  (∀ s f, Sound s → toMe 0x22 f s → s.dom.prepared = none →
    (∀ c, s.dom.decided = some (id f, c) → Becomes (.commitDecide f) s { begin s with
      out := [ringFrame 0x23 0 (s.dom.index.getD 0xFE) 0 (leBytes 2 (id f) ++ leBytes 1 (b2n !c))] }) ∧
    (s.dom.decided = none → leAt f.payload 2 1 = 0 → Becomes (.commitDecide f) s { begin s with
      out := [ringFrame 0x23 0 (s.dom.index.getD 0xFE) 0 (leBytes 2 (id f) ++ leBytes 1 2)] })) ∧
  (∀ s f v t, toMe 0x21 f s → s.dom.vote = some v → v.decided = none → id f = v.id → s.mgmt.txn = some t →
    let yes : Vote := { v with yes := v.yes ++ [f.src] }
    let no : Vote := { v with no := v.no ++ [(f.src, leAt f.payload 3 2, leAt f.payload 5 4, leAt f.payload 9 2)] }
    let all := fun (w : Vote) => (secondaries s).all fun d => w.yes.contains d || w.no.any (·.1 == d)
    (leAt f.payload 2 1 = 0 → all yes = false → Sound s → Becomes (.commitVote f) s { begin s with dom := { s.dom with vote := some yes } }) ∧
    (leAt f.payload 2 1 = 0 → all yes = true → v.no = [] → Becomes (.commitVote f) s (kept s (decideCommit (begin s) yes))) ∧
    (leAt f.payload 2 1 ≠ 0 → all no = true → Becomes (.commitVote f) s (kept s (decideAbort (begin s) no)))) ∧
  (∀ s v c, let u := primaryDecides s v c
    (v.id, c, []) ∈ u.led.commits ∧ u.dom.vote = some { v with decided := some c, applyAt := domNs s + 1000000, completed := !c } ∧
    (ledgerWritable s = true → ∃ r, u.led.log = (r :: s.led.log).take 65520 ∧ r.cls = 0x0F ∧ r.body = padTo 40 (leBytes 2 v.id ++ leBytes 1 (b2n !c) ++ leBytes 8 0)) ∧
    u.out = s.out ++ [ringFrame 0x22 0xFF (s.dom.index.getD 0xFE) 0 (leBytes 2 v.id ++ leBytes 1 (b2n !c) ++ leBytes 5 0 ++ leBytes 8 (domNs s + 1000000))]) ∧
  (∀ s v t, s.dom.vote = some v → v.decided = none → s.mgmt.txn = some t → Becomes .voteTimeout s (kept s (decideAbort (begin s) v))) ∧
  (∀ s, Sound s → (s.dom.vote = none ∨ ∃ v c, s.dom.vote = some v ∧ v.decided = some c) → Becomes .voteTimeout s (begin s)) ∧
  (∀ s, Sound s → onRing s = true → isPrimary s = true → ringCarries s = true → Becomes .decideRepeat s { begin s with
    out := s.led.commits.map fun c => ringFrame 0x22 0xFF (s.dom.index.getD 0xFE) 0 (decidePayload s c.1 c.2.1) }) ∧
  (∀ s f c acks, toMe 0x23 f s → s.led.commits = [(id f, c, acks)] → f.src ∉ acks →
    ((secondaries s).all (acks ++ [f.src]).contains = false → ∃ t, exec (.commitAck f) s = .next t ∧ t.led.commits = [(id f, c, acks ++ [f.src])]) ∧
    ((secondaries s).all (acks ++ [f.src]).contains = true → s.dom.vote = none → ∃ t, exec (.commitAck f) s = .next t ∧ t.led.commits = [])) ∧
  (∀ s v, Sound s → s.dom.vote = some v → v.decided = some true → v.completed = false → (secondaries s).all v.acks.contains = false →
    Becomes .ackTimeout s (kept s (commitEnds { begin s with dom := { s.dom with vote := some { v with completed := true } } } (replyUnreached true v.acks))) ∧
    ∀ x, (replyUnreached x v.acks).status = stUnreachable ∧ leAt (replyUnreached x v.acks).payload 8 1 = b2n !x) ∧
  (∀ s, Sound s → s.dom.vote = none → Becomes .ackTimeout s (begin s))

/-! ## Messages of agents -/

/-- R12, R47, R59, R61, R66, R67, R221, R224, R260: messages of agents. One that arrives whole, with credits, from an agent active on the port joins the crossbar queue of its channel
with the epochs of its arrival and the next receive position; one that is not an agent's is a protocol error; one that the channel's pool has no
room for is a credit failure, which takes the link down with a record; one whose fields Table MSG-7 does not permit, or that its sender
may not send, is a protocol error; one
whose agent is not active on the port goes to the sump, which answers a request or a write-back under the current epochs. The oldest message of its channel for the
slice is taken in a pass, or stays; one whose epochs no longer hold goes to the sump. An arrival at a port whose link is not up
has no effect (the model's choice, log entry 2). -/
def Obligations.AgentMessagesArriveAndAreTaken : Prop :=
  let rows : List (Op × (MsgIn → Instr)) :=
    [(.rdShared, .rdShared), (.rdOwn, .rdOwn), (.rdOnce, .rdOnce), (.upgrade, .upgrade), (.flushLine, .flushLine), (.wrFull, .wrFull),
     (.wrPart, .wrPart), (.atomic, .atomic), (.wbDirty, .wbDirty), (.evictClean, .evictClean), (.rspI, .rspI), (.rspS, .rspS),
     (.rspWbPending, .rspWbPending), (.rspIData, .rspIData), (.rspSData, .rspSData)]
  let room := fun (s : State) (p : Fin 24) (op : Op) => rxHeld (s.ports[p]).rx (opVc op) + opSlots op ≤ vcGet (s.ports[p]).rx.pools (opVc op)
  let sound := fun (op : Op) (h : Hdr) (w : Mask) => opFromAgent op = true ∧ fieldsOk op h w = true
  (∀ r ∈ rows, ∀ s p h d w e, Sound s → (personality s p ≠ .peerOlk ∨ (s.ports[p]).link.state ≠ .active) →
    Becomes (r.2 (.arrive p h d w e)) s (begin s)) ∧
  (∀ r ∈ rows, ∀ s p h d w e, personality s p = .peerOlk → (s.ports[p]).link.state = .active →
    Becomes (r.2 (.arrive p h d w e)) s (kept s (settleFault (begin s)
      (takeArrived (ingress (wordsRead (begin s) [(0, p.val), (1, 0), (3, h.src)]) p r.1 h d w) p h.laddr r.1 (s.ports[p]).rx.position e)))) ∧
  (∀ s ws, s.prot.upsets = [] → wordsRead s ws = s) ∧
  (∀ r ∈ rows, ∀ s p h d w e q, personality s p = .peerOlk → (s.ports[p]).link.state = .active → s.prot.upsets = [] → room s p r.1 → sound r.1 h w →
    activeOn s h.src p = true → senderOk s r.1 h.src = true → (opVc r.1 = 0 ∨ h.dest = ownIndex s) →
    queueHead s p (sliceOf h.laddr) (opVc r.1) = some q → q.position ≠ (s.ports[p]).rx.position →
    ∃ t, exec (r.2 (.arrive p h d w e)) s = .next t ∧
      vcQueue (t.ports[p]) (opVc r.1) = vcQueue (s.ports[p]) (opVc r.1) ++ [rxMsg s p r.1 h d w] ∧
      (t.ports[p]).rx.position = (s.ports[p]).rx.position + 1 ∧
      vcGet (t.ports[p]).rx.rcvd (opVc r.1) = vcGet (s.ports[p]).rx.rcvd (opVc r.1) + opSlots r.1 ∧
      (t.ports[p]).rx.pools = (s.ports[p]).rx.pools ∧ (∀ q : Fin 24, q ≠ p → t.ports[q] = s.ports[q]) ∧ t.slices = s.slices) ∧
  (∀ s p op h d w, opFromAgent op = false → ∃ u, ingress s p op h d w = protocolError u p ∧ u.ports = s.ports ∧ u.slices = s.slices ∧ u.binds = s.binds) ∧
  (∀ s p op h d w, opFromAgent op = true → ¬ room s p op →
    ∃ u, ingress s p op h d w = portFault u p (opVc op) ∧ u.ports = s.ports ∧ u.slices = s.slices ∧ u.binds = s.binds) ∧
  (∀ s p op h d w, room s p op → ¬ sound op h w → ∃ u, ingress s p op h d w = protocolError u p ∧ u.slices = s.slices ∧ u.binds = s.binds) ∧
  (∀ s p op h d w, room s p op → sound op h w → activeOn s h.src p = false →
    ∃ u m, ingress s p op h d w = sumpIn u p op m ∧ m.src = h.src ∧ m.tag = h.tag ∧ m.laddr = h.laddr ∧ m.epochs = epochsFor s p h.src ∧ u.slices = s.slices) ∧
  (∀ s p op h d w, room s p op → sound op h w → activeOn s h.src p = true → (senderOk s op h.src = false ∨ (opVc op ≠ 0 ∧ h.dest ≠ ownIndex s)) →
    ∃ u, ingress s p op h d w = protocolError u p ∧ u.slices = s.slices ∧ u.binds = s.binds) ∧
  (∀ s op a, bindRole s a = 2 → (senderOk s op a = true ↔ op = .rdOnce ∨ op = .wrFull ∨ op = .wrPart ∨ op = .atomic ∨ op = .flushLine)) ∧
  (∀ s p op m, let a : Op := if op = .wbDirty then .wbAck else .cmpErr
    ((sumpIn s p op m).ports[p]).sumpMsgs = (s.ports[p]).sumpMsgs + 1 ∧
    (linkUp s p = true → (opVc op = 0 ∨ op = .wbDirty) → ∃ o, ((sumpIn s p op m).ports[p]).tx.cmpQ = (s.ports[p]).tx.cmpQ ++ [o] ∧
      o.op = a ∧ o.aop = (if op = .wbDirty then 0 else if s.cons.contained then 7 else 1) ∧ o.dest = m.src ∧ o.tag = m.tag ∧ o.laddr = m.laddr ∧ o.epochs = epochsFor s p m.src) ∧
    (linkUp s p = false → ((sumpIn s p op m).ports[p]).tx.cmpQ = (s.ports[p]).tx.cmpQ)) ∧
  (∀ s k p m, inFresh s p m = false → takePass s k p m = .ok (sumpIn s p m.op m)) ∧
  (∀ r ∈ rows, ∀ s p k e, Becomes (r.2 (.queued p k e)) s (kept s (takeHead (begin s) p k r.1 e))) ∧
  (∀ r ∈ rows, ∀ s p k e, Sound s → (∀ m, queueHead s p k (opVc r.1) = some m → m.op ≠ r.1) → Becomes (r.2 (.queued p k e)) s (begin s)) ∧
  (∀ s p k v m, queueHead s p k v = some m → m ∈ vcQueue (s.ports[p]) v ∧ m.slice = k)

/-! ## The home -/

/-- R86, R87, R94, R95, R168, R325, R358, Table HOM-4: how the home takes and opens a request. None is taken before HOME_READY, or without an entry; in
containment it ends with HOME_FAILED; behind a transaction on its line it waits; a wrong DEST, an address in no window or of another home ends with NOT_MAPPED, and an agent
that is not a member with NOT_PERMITTED; a counter window answers RD_ONCE alone. A CMP_ERR goes to the requester with its TAG and code. Each request
snoops the agents that Table HOM-4 names and completes with the message it names. -/
def Obligations.TheHomeTakesAndOpensRequests : Prop :=
  (∀ s k p op m, s.clk.homeOwn = false → acceptReq s k p op m = .error .other) ∧
  (∀ s k p op m, s.clk.homeOwn = true → entryFree s k (partOf s m.laddr) false = false → acceptReq s k p op m = .error .entries) ∧
  (∀ s k p op m, s.clk.homeOwn = true → entryFree s k (partOf s m.laddr) false = true → s.cons.contained = true →
    ∃ u t, acceptReq s k p op m = .ok (errClose u k t 7) ∧ u.slices = s.slices ∧ u.ports = s.ports ∧ t.msg = m ∧ t.port = some p) ∧
  (∀ s k p op m, s.clk.homeOwn = true → entryFree s k (partOf s m.laddr) false = true → s.cons.contained = false → lineBusy (s.slc k) m.laddr = true →
    ∃ u t, acceptReq s k p op m = .ok (putTxn u k t) ∧ u.slices = s.slices ∧ t.msg = m ∧ t.port = some p ∧ t.status = .waiting ∧ t.kind = .req op) ∧
  (∀ s k t c, s.cons.contained = false → t.internal = false → mapCheck s t.msg.src t.msg.dest t.msg.laddr = some c →
    acceptPass s k t = .ok (errClose s k t c)) ∧
  (∀ s k t x, s.cons.contained = false → t.internal = false → mapCheck s t.msg.src t.msg.dest t.msg.laddr = none → counterWindow s t.msg.laddr = some x →
    (t.kind ≠ .req .rdOnce → acceptPass s k t = .ok (errClose s k t 2)) ∧
    (t.kind = .req .rdOnce → ∀ p, t.port = some p → ∃ u o, acceptPass s k t = .ok u ∧ (u.ports[p]).tx.cmpQ = (s.ports[p]).tx.cmpQ ++ [o] ∧ o.op = .dataI ∧
      o.data = bar2Line s x ∧ o.poison = false ∧ o.dest = t.msg.src ∧ o.tag = t.msg.tag)) ∧
  (∀ s src dest line p, dest = ownIndex s → windowOf s (line * 64) = some p → (homeOf s (line * 64)).1 = ownIndex s →
    mapCheck s src dest line = if bitOf (cfgGet s keyMembers p) src then none else some 2) ∧
  (∀ s src dest line, (dest ≠ ownIndex s ∨ windowOf s (line * 64) = none ∨ (homeOf s (line * 64)).1 ≠ ownIndex s) → mapCheck s src dest line = some 4) ∧
  (∀ s k t p code, t.port = some p → ∃ o, ((errClose s k t code).ports[p]).tx.cmpQ = (s.ports[p]).tx.cmpQ ++ [o] ∧
    o.op = .cmpErr ∧ o.aop = code ∧ o.dest = t.msg.src ∧ o.tag = t.msg.tag ∧ o.laddr = t.msg.laddr ∧ o.epochs = epochsFor s p t.msg.src) ∧
  (∀ s k part, entryFree s k part false = true ↔ poolOpen (s.slc k) .general + poolWait (s.slc k) .general < 928 ∧
    (s.slc k).txns.countP (fun t => t.pool == .general && !t.internal && t.part == part) < cfgGet s keyTxnCap part) ∧
  (∀ s (t : Txn) (d : DirEntry),
    let r := reqBit t
    let h := d.v &&& ~~~ r
    let share := if d.state = .X then h else 0
    (t.kind = .req .rdShared → homeFlow s t d = (.snpShare, share, if grantsE s t d then .dataE else .dataS)) ∧
    (t.kind = .req .rdOwn → homeFlow s t d = (.snpInv, h, .dataE)) ∧
    (t.kind = .req .upgrade → homeFlow s t d = (.snpInv, h, if d.v &&& r = 0 then .dataE else .grantE)) ∧
    (t.kind = .req .rdOnce → homeFlow s t d = (.snpShare, share, .dataI)) ∧
    (t.kind = .req .atomic → homeFlow s t d = (.snpInv, h, .atomicData)) ∧
    ((t.kind = .req .wrFull ∨ t.kind = .req .wrPart ∨ t.kind = .req .flushLine) → homeFlow s t d = (.snpInv, h, .wrAck)) ∧
    (grantsE s t d = true ↔ attrE t.msg.attr = true ∧ bitOf (cfgGet s keyFlags t.part) 0 = true ∧ (d.state = .I ∨ d.v = r)))

/-- R96, R97, R98, R103, R104, R105, R223: how the home closes transactions and takes WB and RSP messages. The closing pass removes the agents snooped that keep nothing, gives or clears the requester's
bit, and sets the state from what is left; a completion goes out with the data of the request's flow. A WB_DIRTY of the line's only X holder
is acknowledged once its data is placed; any other is stray, and acknowledged with no effect on the line, its entry kept until the
WB_ACK has departed. An EVICT_CLEAN clears its sender's bit unless EVICT_GUARD is set, the bit is clear or
a snoop to its sender is outstanding. A response that answers no snoop is discarded: no slice, port or HBM line changes. -/
def Obligations.TheHomeClosesTransactions : Prop :=
  (∀ s k (t : Txn) (d : DirEntry) (n : Snoop), n ∈ t.snoops → n.answered = true → n.keepsS = false → n.agent < 64 → n.agent ≠ t.msg.src →
    (closeEntry s k t d).v.getLsbD n.agent = false) ∧
  (∀ s k (t : Txn) (d : DirEntry), t.port.isSome = true → t.msg.src < 64 →
    let e := closeEntry s k t d
    let grants := t.grant = some .dataS ∨ t.grant = some .dataE ∨ t.grant = some .grantE
    let clears := t.staleRole = true ∨ flowOp t = .wrFull ∨ flowOp t = .wrPart ∨ flowOp t = .atomic ∨ flowOp t = .flushLine
    (clears → e.v.getLsbD t.msg.src = false) ∧
    (¬ clears → grants → e.v.getLsbD t.msg.src = true ∧ e.state = if t.grant = some .dataS then .S else .X)) ∧
  (∀ s k (t : Txn) (d : DirEntry) a, a < 64 → a ≠ t.msg.src → (∀ n ∈ t.snoops, n.agent ≠ a) → (closeEntry s k t d).v.getLsbD a = d.v.getLsbD a) ∧
  (∀ s k (t : Txn) (d : DirEntry), (closeEntry s k t d).state = .I ↔ (closeEntry s k t d).v = 0) ∧
  (∀ s k (t : Txn), (t.kind = .req .wrFull → closeData s k t = (placeData s k t.msg.laddr t.msg.data t.msg.poison t.part (attrNt t.msg.attr) false).map
      fun u => (u, .wrAck, 0, false, 0)) ∧
    (t.kind = .req .wrPart → t.msg.be ≠ BitVec.allOnes 64 → closeData s k t = (placeData s k t.msg.laddr (mergeLine (txnValue t).1 t.msg.data t.msg.be)
      (t.msg.poison || (txnValue t).2) t.part (attrNt t.msg.attr) false).map fun u => (u, .wrAck, 0, false, 0)) ∧
    (t.kind = .req .atomic → (txnValue t).2 = true → closeData s k t = (placeData s k t.msg.laddr (txnValue t).1 true t.part (attrNt t.msg.attr) false).map
      fun u => (u, .cmpErr, 0, false, 3)) ∧
    (∀ u x, t.kind = .req .atomic → (txnValue t).2 = false → closeData s k t = .ok (u, x) →
      x = (.atomicData, (atomicLine t.msg.aop t.msg.size t.msg.be t.msg.data (txnValue t).1).2, false, 0)) ∧
    ((t.kind = .req .rdShared ∨ t.kind = .req .rdOwn ∨ t.kind = .req .rdOnce ∨ t.kind = .req .upgrade) → ∀ g, t.grant = some g →
      closeData s k t = .ok (s, g, (txnValue t).1, (txnValue t).2, 0))) ∧
  (∀ (t : Txn) d p, t.snoopData = some (d, p) → txnValue t = (d, p)) ∧
  (∀ (t : Txn) d p, t.snoopData = none → t.read = .value d p → txnValue t = (d, p)) ∧
  (∀ old new be (i : Nat), i < 64 → Line.byte (mergeLine old new be) i = if be.getLsbD i then Line.byte new i else Line.byte old i) ∧
  (∀ s k t, s.disown = 0 → ((dirOf s k t.msg.laddr).state ≠ .X ∨ (dirOf s k t.msg.laddr).v ≠ oneHot t.msg.src) →
    wbOwned s k t = .ok (strayWb s k t)) ∧
  (∀ s k t p, t.port = some p → let u := strayWb s k t
    ∃ o x, (u.ports[p]).tx.cmpQ = (s.ports[p]).tx.cmpQ ++ [o] ∧ o.op = .wbAck ∧ o.dest = t.msg.src ∧ o.tag = t.msg.tag ∧ o.owner = some (k, t.id) ∧
      getTxn u k t.id = some x ∧ x.status = .closing ∧ x.cmpsOut = 1 ∧ x.aside = true ∧ u.hbm = s.hbm ∧
      (u.slc k).dcache = (s.slc k).dcache ∧ (u.slc k).dstore = (s.slc k).dstore ∧ (u.slc k).wbuf = (s.slc k).wbuf ∧
      ∀ i, i ≠ k → u.slc i = s.slc i) ∧
  (∀ s k t u p, t.port = some p → s.disown = 0 → (dirOf s k t.msg.laddr).state = .X → (dirOf s k t.msg.laddr).v = oneHot t.msg.src → t.msg.src < 64 →
    placeData s k t.msg.laddr t.msg.data t.msg.poison t.part (attrNt t.msg.attr) true = .ok u → ∀ w, wbOwned s k t = .ok w →
    ∃ o, (w.ports[p]).tx.cmpQ = (u.ports[p]).tx.cmpQ ++ [o] ∧ o.op = .wbAck ∧ o.dest = t.msg.src ∧ o.tag = t.msg.tag ∧ o.laddr = t.msg.laddr) ∧
  (∀ s k line a part, s.disown = 0 →
    ((dirOf s k line).guard = true ∨ (dirOf s k line).v &&& oneHot a = 0 ∨ (∃ t, openOn (s.slc k) line = some t ∧ (snoopTo t a).isSome = true)) →
    evictDo s k line a part = .ok s) ∧
  (∀ s k line a part w, s.disown = 0 → (dirOf s k line).guard = false → (dirOf s k line).v &&& oneHot a ≠ 0 → openOn (s.slc k) line = none →
    dcFind (s.slc k) line = some w →
    let v := w.v &&& ~~~ (oneHot a)
    evictDo s k line a part = .ok (dcPut s k { w with v := v, state := stateOf v ((dirOf s k line).state == .X), guard := false, dirty := true })) ∧
  (∀ s k p op m, ((s.slc k).txns.all fun t => !(t.msg.laddr == m.laddr && t.snoops.any fun n => n.agent == m.src && n.tag == m.tag && !n.answered && !n.wbPending)) = true →
    ∃ u, acceptRsp s k p op m = .ok u ∧ u.slices = s.slices ∧ u.ports = s.ports ∧ u.hbm = s.hbm) ∧
  (∀ snp rsp, rspPermitted snp rsp = true ↔ rsp = .rspI ∨ rsp = .rspIData ∨ rsp = .rspWbPending ∨ ((rsp = .rspS ∨ rsp = .rspSData) ∧ snp = .snpShare)) ∧
  (∀ s k t, t.status = .closing → t.cmpsOut = 0 → t.snoops.all (·.answered) = true → getTxn (finishTxn s k t) k t.id = none) ∧
  (∀ s k t, (t.cmpsOut ≠ 0 ∨ t.snoops.all (·.answered) = false) → getTxn (finishTxn s k t) k t.id = some t)

/-- R39, R89, R108, R109, R222, R224, R225: completions that leave, snoops that time out, and epochs. The oldest CMP message at a port is placed when credits and
room allow, in a flit that the next one may join (assumption 71), and is dropped in the sump when its epochs no longer hold; it stays
otherwise. A snoop that no transaction has outstanding cannot time out; one that times out counts as answered, with zeros and poison for
data when its agent holds the line in X. An epoch advances modulo 256, or, while a message with the new value is inside, the advance is
held until EPOCH_ADVANCE finds none. (Stated for departures with no upset of a triplicated word.) -/
def Obligations.CompletionsTimeoutsAndEpochs : Prop :=
  (∀ s p, Sound s → s.prot.upsets = [] → (s.ports[p]).tx.cmpQ = [] → Becomes (.cmpDeparture p) s (begin s)) ∧
  (∀ s p m rest, Sound s → s.prot.upsets = [] → (s.ports[p]).tx.cmpQ = m :: rest → outFresh s p m = true → canPlace s p m.op = false → Becomes (.cmpDeparture p) s (begin s)) ∧
  (∀ s p m rest, s.prot.upsets = [] → (s.ports[p]).tx.cmpQ = m :: rest → outFresh s p m = true → canPlace s p m.op = true → m.credit = false → m.owner = none →
    isOlk s p = true → histClass m.reqOp = none →
    let b := begin s
    Becomes (.cmpDeparture p) s (kept s (joinFlit (placeMsg (b.updPort p fun x => { x with tx := { x.tx with cmpQ := rest } }) p m) p))) ∧
  (∀ s p m rest, s.prot.upsets = [] → (s.ports[p]).tx.cmpQ = m :: rest → outFresh s p m = false → m.credit = false → m.owner = none → isOlk s p = true →
    let b := begin s
    Becomes (.cmpDeparture p) s (kept s (sumpCount (b.updPort p fun x => { x with tx := { x.tx with cmpQ := rest } }) p m.dest))) ∧
  (∀ s p, s.prot.upsets = [] → Becomes (.cmpDeparture p) s (kept s (settleFault (begin s) (departCmp p (begin s))))) ∧
  (∀ s p m, flowing s p = true → Quiet (s.ports[p]) → (s.ports[p]).link.fromVerify = false → (s.ports[p]).enc.on = false → (s.ports[p]).rx.unacked = 0 →
    (s.ports[p]).tx.idleRun + 3 ≤ 2047 → opSlots m.op ≤ slotsPerFlit (s.ports[p]).link.gen →
    let u := endFlit (placeMsg s p m) p
    ∃ lanes, u.out = s.out ++ [.flit p (encodeFlit (s.ports[p]).link.gen (s.ports[p]).tx.nextSeq true 0 false (outSlots s p m)) lanes] ∧
      vcGet (u.ports[p]).tx.avail (opVc m.op) = vcGet (s.ports[p]).tx.avail (opVc m.op) - opSlots m.op ∧
      vcGet (u.ports[p]).tx.sent (opVc m.op) = vcGet (s.ports[p]).tx.sent (opVc m.op) + opSlots m.op) ∧
  (∀ s k l a, Sound s → (∀ t ∈ (s.slc k).txns, t.msg.laddr = l → snoopTo t a = none) → Becomes (.snoopTimeout k l a) s (begin s)) ∧
  (∀ s k l a, Becomes (.snoopTimeout k l a) s (kept s (snoopTimeout k l a (begin s)))) ∧
  (∀ s k t a n, s.cons.contained = true → snoopTo t a = some n → ∃ u, timeoutSnoop s k t a = .ok u ∧
    (u.slc k).ansTo = (s.slc k).ansTo + 1 ∧ u.hbm = s.hbm) ∧
  (∀ s k t a n r, s.cons.contained = false → snoopTo t a = some n →
    let holds := (dirRaw (s.slc k) t.msg.laddr).state = .X ∧ (dirRaw (s.slc k) t.msg.laddr).v &&& oneHot a ≠ 0
    (holds → takeSnoopData s k t 0 true = .ok r) → (¬ holds → r = (s, t)) → ∃ u,
      timeoutSnoop s k t a = tryClose u k (updSnoop r.2 a fun n => { n with answered := true }) ∧ (u.slc k).ansTo = (r.1.slc k).ansTo + 1) ∧
  (∀ s a, ((s.bind a).status = .disowning ∨ s.cons.contained = true) → agentFailed s a = s) ∧
  (∀ s a (h : a < 256), let v := ((s.bind a).epoch + 1) % 256
    (epochUsed s (.agent ⟨a, h⟩) v = false → ((advanceEpoch s a).bind a).epoch = v ∧ ((advanceEpoch s a).bind a).epochHeld = false) ∧
    (epochUsed s (.agent ⟨a, h⟩) v = true → ((advanceEpoch s a).bind a).epoch = (s.bind a).epoch ∧ ((advanceEpoch s a).bind a).epochHeld = true) ∧
    ∀ b, b ≠ a → (advanceEpoch s a).bind b = s.bind b) ∧
  (∀ s (a : Fin 256), Sound s → (s.bind a).epochHeld = false → Becomes (.epochAdvance (.agent a)) s (begin s)) ∧
  (∀ s (a : Fin 256), Sound s → (s.bind a).epochHeld = true →
    let v := ((s.bind a).epoch + 1) % 256
    (epochUsed s (.agent a) v = true → Becomes (.epochAdvance (.agent a)) s (begin s)) ∧
    (epochUsed s (.agent a) v = false → ∃ t, exec (.epochAdvance (.agent a)) s = .next t ∧ (t.bind a).epoch = v ∧ (t.bind a).epochHeld = false ∧
      (t.bind a).status = (s.bind a).status ∧ (∀ b, b ≠ a.val → t.bind b = s.bind b) ∧ t.ports = s.ports ∧ t.slices = s.slices)) ∧
  (∀ s (p : Fin 24), Sound s → (s.ports[p]).epochHeld = false → Becomes (.epochAdvance (.port p)) s (begin s)) ∧
  (∀ s (p : Fin 24), Sound s → (s.ports[p]).epochHeld = true →
    let v := ((s.ports[p]).epoch + 1) % 256
    (epochUsed s (.port p) v = true → Becomes (.epochAdvance (.port p)) s (begin s)) ∧
    (epochUsed s (.port p) v = false → ∃ t, exec (.epochAdvance (.port p)) s = .next t ∧ (t.ports[p]).epoch = v ∧ (t.ports[p]).epochHeld = false ∧
      (∀ q : Fin 24, q ≠ p → t.ports[q] = s.ports[q]) ∧ t.binds = s.binds ∧ t.slices = s.slices))

/-! ## CXL.mem -/

/-- R191, R192, R195, R196, R198, R199, R203, Table CXL-3: CXL.mem messages of a host. Each translates to the message that Table CXL-3 names, on a CXL 3 port and on a CXL 2 port; a form the table does not give takes
the link down. A Req or RwD uses a credit of its class and an internal TAG that the tag map does not hold; none is taken while the map is full; without a binding, or at an address that no decoder
maps, the port answers it itself. MemSpecRd returns its credit and does nothing; BIConflict is answered once nothing of its line is queued ahead;
a BIRsp waits for the WB_ACK of an earlier write-back of its line. Every class keeps its credit identity. On an encrypted link a message whose MAC fails takes the link down with a MAC_FAIL record,
and an opcode outside Table CXL-3 takes it down. A message at a port that is not a CXL host's has
no effect, and the encodings of MetaField, MetaValue and SnpType are those of log entry 39 (the model's choices). -/
def Obligations.CxlMessagesAreTranslated : Prop :=
  let rows : List (Fin 24 → CxlMsg → Instr) :=
    [.cxlMemRd, .cxlMemRdData, .cxlMemSpecRd, .cxlMemInv, .cxlMemClnEvct, .cxlMemWr, .cxlMemWrPtl, .cxlBiConflict, .cxlBiRsp]
  let cxl3 := fun (s : State) (p : Fin 24) => personality s p = .peerCxl3 ∧ (s.ports[p]).cxl.up = true
  let cxl2 := fun (s : State) (p : Fin 24) => personality s p = .peerCxl2 ∧ (s.ports[p]).cxl.up = true
  let clear := fun (s : State) (p : Fin 24) (m : CxlMsg) => ideOn (s.ports[p]).cxl = false ∨ m.mac = true
  let whole := fun (s : State) (p : Fin 24) (m : CxlMsg) => clear s p m ∧ m.other = false
  let asks := fun (c : Fin 24 → CxlMsg → Instr) (s : State) (p : Fin 24) (m : CxlMsg) (cls : Nat) (op : Op) (attr : BitVec 8) =>
    whole s p m → Becomes (c p m) s (kept s (cxlRequest p cls m op attr (begin s)))
  let bad := fun (c : Fin 24 → CxlMsg → Instr) (s : State) (p : Fin 24) (m : CxlMsg) => whole s p m → Becomes (c p m) s (kept s (protocolError (begin s) p))
  let poison := fun (m : CxlMsg) => if m.poison then (4 : BitVec 8) else 0
  (∀ c ∈ rows, ∀ s p m, Sound s → personality s p ≠ .peerCxl3 → personality s p ≠ .peerCxl2 → Becomes (c p m) s (begin s)) ∧
  (∀ c ∈ rows, ∀ s p m, (cxl3 s p ∨ cxl2 s p) → ¬ clear s p m → Becomes (c p m) s (kept s (macFails (begin s) p))) ∧
  (∀ c ∈ rows, ∀ s p m, (cxl3 s p ∨ cxl2 s p) → clear s p m → m.other = true → Becomes (c p m) s (kept s (protocolError (begin s) p))) ∧
  (∀ s p m, cxl3 s p →
    (m.metaField = 3 → asks .cxlMemRd s p m 0 .rdOnce 0) ∧
    (m.metaField ≠ 3 → m.metaValue = 2 → asks .cxlMemRd s p m 0 .rdOwn 0) ∧
    (m.metaField ≠ 3 → m.metaValue = 3 → asks .cxlMemRd s p m 0 .rdShared 1) ∧
    (m.metaField ≠ 3 → m.metaValue = 0 → asks .cxlMemRd s p m 0 .rdOnce 0) ∧
    asks .cxlMemRdData s p m 0 .rdShared 1 ∧
    (m.metaValue = 2 → m.nt = false → asks .cxlMemInv s p m 0 .upgrade 0) ∧
    (m.metaValue = 0 → asks .cxlMemInv s p m 0 .flushLine 0) ∧
    ((m.metaValue ≠ 2 ∨ m.nt = true) → m.metaValue ≠ 0 → bad .cxlMemInv s p m) ∧
    asks .cxlMemClnEvct s p m 0 .evictClean 0 ∧
    (m.snpType = 0 → asks .cxlMemWr s p m 1 .wbDirty (poison m)) ∧
    (m.snpType = 3 → asks .cxlMemWr s p m 1 .wrFull (poison m)) ∧
    (m.snpType ≠ 0 → m.snpType ≠ 3 → bad .cxlMemWr s p m) ∧
    asks .cxlMemWrPtl s p m 1 .wrPart (poison m) ∧
    (1 < m.snpType → bad .cxlBiRsp s p m) ∧
    (whole s p m → Becomes (.cxlBiConflict p m) s (kept s (biConflict p m (begin s)))) ∧ (whole s p m → Becomes (.cxlBiRsp p m) s (kept s (biRsp p m (begin s))))) ∧
  (∀ s p m, cxl2 s p →
    asks .cxlMemRd s p m 0 .rdOnce 0 ∧ asks .cxlMemRdData s p m 0 .rdOnce 0 ∧ bad .cxlMemInv s p m ∧ bad .cxlMemClnEvct s p m ∧
    (m.snpType = 0 → asks .cxlMemWr s p m 1 .wrFull (poison m)) ∧ (m.snpType = 3 → asks .cxlMemWr s p m 1 .wrFull (poison m)) ∧
    asks .cxlMemWrPtl s p m 1 .wrPart (poison m) ∧ bad .cxlBiConflict s p m ∧ bad .cxlBiRsp s p m) ∧
  (∀ s p m, (cxl3 s p ∨ cxl2 s p) → whole s p m → 0 < (s.ports[p]).cxl.m2sReq.avail → (s.ports[p]).cxl.tagMap.length < 4096 →
    let x := (s.ports[p]).cxl.m2sReq
    ∃ t, exec (.cxlMemSpecRd p m) s = .next t ∧ t.slices = s.slices ∧ (t.ports[p]).reqQ = (s.ports[p]).reqQ ∧ (t.ports[p]).tx = (s.ports[p]).tx ∧
      (t.ports[p]).cxl.m2sReq = { x with avail := x.avail + x.due, sent := x.sent + 1, ret := x.ret + x.due + 1, due := 0, shSent := x.shSent + 1, shRet := x.shRet + x.due + 1 }) ∧
  (∀ s p m, (cxl3 s p ∨ cxl2 s p) → (s.ports[p]).cxl.m2sReq.avail = 0 → bad .cxlMemSpecRd s p m) ∧
  (∀ s p cls m op attr, 4096 ≤ (s.ports[p]).cxl.tagMap.length → cxlRequest p cls m op attr s = s) ∧
  (∀ s p cls m op attr, (s.ports[p]).cxl.tagMap.length < 4096 → cxlSpend (s.ports[p]).cxl cls = none → cxlRequest p cls m op attr s = protocolError s p) ∧
  (∀ s p cls m op attr c, (s.ports[p]).cxl.tagMap.length < 4096 → cxlSpend (s.ports[p]).cxl cls = some c →
    let tag := freeCxlTag (s.ports[p]).cxl
    let held := fun (u : State) => (u.ports[p]).cxl.tagMap = (s.ports[p]).cxl.tagMap ++ [(tag, m.tag)] ∧ u.slices = s.slices
    (∀ e ∈ (s.ports[p]).cxl.tagMap, e.1 ≠ tag) ∧
    (∀ a f, c.bound = some a → fabricOfHpa c m.addr = some f → ∃ u h w, held u ∧ cxlRequest p cls m op attr s = cxlIngress u p op h m.data w ∧
      h.src = a ∧ h.dest = ownIndex s ∧ h.tag = tag ∧ h.laddr = f / 64 ∧ h.attr = attr ∧ (opMaskForm op = true → w = m.be)) ∧
    ((c.bound = none ∨ fabricOfHpa c m.addr = none) → ∃ u, held u ∧ cxlRequest p cls m op attr s = cxlUnbound u p cls tag)) ∧
  (∀ s p tag, isOlk s p = false → ∃ o, ((cxlUnbound s p 0 tag).ports[p]).tx.cmpQ = (s.ports[p]).tx.cmpQ ++ [o] ∧ o.op = .cmpErr ∧ o.aop = 2 ∧ o.tag = tag) ∧
  (∀ s p tag, isOlk s p = false → ∃ o, ((cxlUnbound s p 1 tag).ports[p]).tx.cmpQ = (s.ports[p]).tx.cmpQ ++ [o] ∧ o.op = .wrAck ∧ o.tag = tag) ∧
  (∀ c c' cls, cxlSpend c cls = some c' → cxlHolds c.m2sReq = true → cxlHolds c.m2sRwd = true → cxlHolds c.m2sBiRsp = true →
    cxlHolds c'.m2sReq = true ∧ cxlHolds c'.m2sRwd = true ∧ cxlHolds c'.m2sBiRsp = true) ∧
  (∀ c : CxlCredit, cxlHolds c = true → cxlHolds (giveBack c) = true) ∧
  (∀ s p m a, (s.ports[p]).cxl.m2sBiRsp.avail ≠ 0 → (s.ports[p]).cxl.bound = some a → activeOn s a p = true → m.snpType ≤ 1 →
    (s.ports[p]).cxl.wbOut.any (fun e => e.1 == biLine (s.ports[p]).cxl m) = true →
    ((biRsp p m s).ports[p]).cxl.heldBi = (s.ports[p]).cxl.heldBi ++ [(biLine (s.ports[p]).cxl m, if m.snpType = 0 then .rspI else .rspS)] ∧
    (biRsp p m s).slices = s.slices) ∧
  (∀ s p m, (s.ports[p]).cxl.bound ≠ none → (s.ports[p]).cxl.m2sRwd.avail = 0 → biConflict p m s = protocolError s p) ∧
  (∀ s p m, (s.ports[p]).cxl.bound = none → (s.ports[p]).cxl.tagMap.length < 4096 → (s.ports[p]).cxl.m2sRwd.avail ≠ 0 →
    ∃ u, (u.ports[p]).cxl.tagMap = (s.ports[p]).cxl.tagMap ++ [(freeCxlTag (s.ports[p]).cxl, m.tag)] ∧ u.slices = s.slices ∧
      biConflict p m s = cxlUnbound u p 1 (freeCxlTag (s.ports[p]).cxl))

/-! ## Memory ports -/

/-- R74, R76, R77, R151, R165, R175, R186, R188, R189, R202, R203, R238: memory ports. A port that cannot issue, or for which nothing is queued, schedules nothing; a request is sent under the lowest TAG that no outstanding request holds, and stays outstanding until its
answer; an answer that names no outstanding request of its kind with its TAG and MADDR, or one already answered, is a protocol error, and one on an encrypted CXL link whose MAC fails takes the link down with a MAC_FAIL record; an acknowledged target is marked, and the entry is freed by the last one. The line of an answer is good, corrected
or not as its MATTR says, and poison from an expander is an uncorrectable line too. The timeout of a port that is not away, or unreachable already, changes nothing; a copy that is lost is noted once, and its rebuild starts on a
port that is eligible. An answer at a port whose link is down has no effect (the model's choice, log entry 2). -/
def Obligations.MemoryPortsSendAndAnswer : Prop :=
  let up := fun (s : State) (p : Fin 24) => isMem s p = true ∧ (if isOlk s p then (s.ports[p]).link.state == .active else (s.ports[p]).cxl.up) = true
  let mem := fun (s : State) (p : Fin 24) => (s.ports[p]).mem
  let clear := fun (s : State) (p : Fin 24) (mac : Bool) => isOlk s p = true ∨ ideOn (s.ports[p]).cxl = false ∨ mac = true
  (∀ s p, Sound s → s.prot.upsets = [] → memIssues s p = false → Becomes (.memoryPortSchedule p) s (begin s)) ∧
  (∀ s p, Becomes (.memoryPortSchedule p) s (kept s (settleFault (begin s) (serveRound p (wordRead (begin s) 0 p))))) ∧
  (∀ s p, Sound s → s.prot.upsets = [] → (s.ports[p]).tx.packed = [] → (mem s p).queue = [] → Becomes (.memoryPortSchedule p) s (begin s)) ∧
  (∀ s p, memIssues s p = true → (mem s p).taken = true ∧ (mem s p).outstanding.length < 4096 ∧ (s.ports[p]).link.draining = false ∧
    (isOlk s p = true → (s.ports[p]).link.state = .active ∧ (s.ports[p]).rx.bindSeen = true)) ∧
  (∀ s p r, memIssues s p = true → isOlk s p = true →
    (memPlaceable s p r = true ↔ (s.ports[p]).rx.initSeen = true ∧ opSlots (reqOp r) ≤ (s.ports[p]).tx.avail.mem ∧ replayRoom (s.ports[p]) (opSlots (reqOp r)) = true)) ∧
  (∀ s p r, memIssues s p = true → isOlk s p = false →
    (memPlaceable s p r = true ↔ 0 < (if r.kind = 0 then (s.ports[p]).cxl.m2sReq.avail else (s.ports[p]).cxl.m2sRwd.avail))) ∧
  (∀ r : MemReq, reqCost r = if r.kind = 2 then 1 else 4) ∧
  (∀ r : MemReq, reqOp r = if r.kind = 0 then .memRd else if r.kind = 2 then .memZero else .memWr) ∧
  (∀ m : PortMem, m.outstanding.length < 4096 → freeMemTag m < 4096 ∧ (∀ o ∈ m.outstanding, o.tag ≠ freeMemTag m) ∧
    ∀ i, i < freeMemTag m → ∃ o ∈ m.outstanding, o.tag = i) ∧
  (∀ s p r, ∃ o, (mem (sendMem s p r) p).outstanding = (mem s p).outstanding ++ [o] ∧ o.tag = freeMemTag (mem s p) ∧ o.req = r ∧ o.placedAt = s.obs.cycles ∧
    (mem (sendMem s p r) p).queue = removeFirst r (mem s p).queue) ∧
  (∀ m : PortMem, ∀ q ∈ partOrder m, ∃ r ∈ m.queue, r.part = q) ∧
  (∀ m : PortMem, ∀ r ∈ m.queue, r.part ∈ partOrder m) ∧
  (∀ s p m, Sound s → ¬ up s p → Becomes (.memRdData p m) s (begin s)) ∧
  (∀ s p tag maddr mac, Sound s → ¬ up s p → Becomes (.memWrAck p tag ⟨maddr, mac⟩) s (begin s)) ∧
  (∀ s p m, up s p → ¬ clear s p m.mac → Becomes (.memRdData p m) s (kept s (macFails (begin s) p))) ∧
  (∀ s p tag maddr mac, up s p → ¬ clear s p mac → Becomes (.memWrAck p tag ⟨maddr, mac⟩) s (kept s (macFails (begin s) p))) ∧
  (∀ s p m, up s p → clear s p m.mac → ((∀ o ∈ (mem s p).outstanding, o.tag = m.tag → o.req.kind ≠ 0 ∨ o.req.maddr ≠ m.maddr) ∨ ∃ q ∈ (s.ports[p]).memQ, q.tag = m.tag) →
    Becomes (.memRdData p m) s (kept s (protocolError (begin s) p))) ∧
  (∀ s p tag maddr mac, up s p → clear s p mac → ((∀ o ∈ (mem s p).outstanding, o.tag = tag → o.req.kind = 0 ∨ o.req.maddr ≠ maddr) ∨ ∃ q ∈ (s.ports[p]).memQ, q.tag = tag) →
    Becomes (.memWrAck p tag ⟨maddr, mac⟩) s (kept s (protocolError (begin s) p))) ∧
  (∀ s p m, Becomes (.memRdData p m) s (kept s (memRdData p m (begin s)))) ∧
  (∀ s p tag maddr mac, Becomes (.memWrAck p tag ⟨maddr, mac⟩) s (kept s (memWrAck p tag maddr mac (begin s)))) ∧
  (∀ s p m, transparent s p = false → (let poison := m.mattr.getLsbD 2 || m.metaw.getLsbD 0
    let ue := m.mattr.getLsbD 4 = true ∨ (poison = true ∧ personality s p = .memCxl)
    (ue → memDecode s p m = (.ue false, false)) ∧ (¬ ue → memDecode s p m = (.good m.data poison 0, m.mattr.getLsbD 5 && !poison)))) ∧
  (∀ s p tag, ∀ o ∈ (mem (dropOutstanding s p tag) p).outstanding, o.tag ≠ tag ∧ o ∈ (mem s p).outstanding) ∧
  (∀ s k id i e, (s.slc k).wbuf.find? (·.id == id) = some e → (e.targets.modify i fun t => { t with acked := true }).all (·.acked) = true →
    ((wbAcked s k id i).slc k).wbuf = (s.slc k).wbuf.filter (·.id != id)) ∧
  (∀ s k id i e, (s.slc k).wbuf.find? (·.id == id) = some e → (e.targets.modify i fun t => { t with acked := true }).all (·.acked) = false →
    ∃ e', ((wbAcked s k id i).slc k).wbuf.find? (·.id == id) = some e' ∧ e'.data = e.data ∧ e'.targets = e.targets.modify i fun t => { t with acked := true }) ∧
  (∀ s p, Sound s → ((mem s p).away = false ∨ (mem s p).unreachable = true ∨ (mem s p).taken = false ∨ (s.ports[p]).link.state = .maint) →
    Becomes (.memPortTimeout p) s (begin s)) ∧
  (∀ s p, (mem s p).away = true → (mem s p).unreachable = false → (mem s p).taken = true → (s.ports[p]).link.state ≠ .maint →
    Becomes (.memPortTimeout p) s (kept s (portTimeout p (begin s)))) ∧
  (∀ s fx copy, (fx, copy) ∈ s.pool.degraded → loseCopy s fx copy = s) ∧
  (∀ s fx copy, (fx, copy) ∉ s.pool.degraded → (loseCopy s fx copy).pool.degraded = s.pool.degraded ++ [(fx, copy)]) ∧
  (∀ s fx copy, Sound s → (s.cons.contained = true ∨ (findJob s fx copy = none ∧ ((fx, copy) ∉ s.pool.degraded ∨ fxEntry s fx = none))) →
    Becomes (.tripleRebuild fx copy) s (begin s)) ∧
  (∀ s fx copy e u, s.cons.contained = false → findJob s fx copy = none → (fx, copy) ∈ s.pool.degraded → fxEntry s fx = some e → startCopy (begin s) e copy none = some u →
    Becomes (.tripleRebuild fx copy) s (kept s u)) ∧
  (∀ s fx copy j, s.cons.contained = false → findJob s fx copy = some j → j.oldBx = none →
    Becomes (.tripleRebuild fx copy) s (kept s (copyStep (begin s) j))) ∧
  (∀ s e copy old, (∀ p, sparePort s e copy ≠ some p) → startCopy s e copy old = none) ∧
  (∀ s e copy p, sparePort s e copy = some p → eligible s p = true ∧ 0 < freeOf (mem s p)) ∧
  (∀ n, extentsOf n = 512 * n) ∧ (∀ ek, metaOf ek * 16384 ≥ ek ∧ metaOf ek * 16384 < ek + 16384)

/-! ## Slices and the allocator -/

/-- R16, R87, R119, R123, R132, R142, R153, R161, R171, R173, R175, R177, R179, R182: what a slice takes besides messages, and the allocator. What answers no outstanding read, write, tag set or slot changes
nothing, and neither does a completion of an access that still waits for its activation; the writes of a set are counted down, and a store set's table entry is freed with the last of what holds it. The allocator serves COLLECT requests before others; an extent already bound needs nothing;
quota, reserve and eligible ports are checked in that order, a refusal changes no extent, and a grant makes the extent ALLOCATED. A read that misses takes zeros from an UNALLOCATED extent, an
unwritten page or a discarded line, poison from a LOST extent or one with no copy left, and backing data otherwise. -/
def Obligations.SlicesTakeReturnsAndExtents : Prop :=
  let slc := fun (s : State) (k : Fin 16) => s.slices[k]
  let storeHeld := fun (s : State) (k : Fin 16) (set : Nat) => ∃ i, i < 4 ∧ hbmHeld s (storeAddr k set (4 * i)) = true
  let tagsHeld := fun (s : State) (k : Fin 16) (ls : Nat) => ∃ i, i < 8 ∧ hbmHeld s (tagAddr s.fuses.is144 k ls + 64 * i) = true
  (∀ s k id e f, Sound s → (∀ r ∈ (slc s k).reads, r.id ≠ id) → Becomes (.hbmReturn k id ⟨e, f⟩) s (begin s)) ∧
  (∀ s k id e f, Becomes (.hbmReturn k id ⟨e, f⟩) s (kept s (hbmReturn k id e f (begin s)))) ∧
  (∀ s k set e f, Sound s → ((∀ x ∈ (slc s k).sat, x.set ≠ set ∨ x.reading = false) ∨ storeHeld s k set) → Becomes (.storeSetReturn k set ⟨e, f⟩) s (begin s)) ∧
  (∀ s k set e f, Becomes (.storeSetReturn k set ⟨e, f⟩) s (kept s (storeReturn k set e f (begin s)))) ∧
  (∀ s k set q, Sound s → ((∀ x ∈ (slc s k).sat, x.set ≠ set ∨ x.writes = 0) ∨ storeHeld s k set) → Becomes (.hbmWriteComplete k (.store set q)) s (begin s)) ∧
  (∀ s k set x, satFind (slc s k) set = some x → x.writes ≠ 0 → ¬ storeHeld s k set → Becomes (.hbmWriteComplete k (.store set none)) s
    (kept s (settle (satFree (updSat (begin s) k set fun e => { e with writes := e.writes - 1 }) k set) k))) ∧
  (∀ s k set, Becomes (.hbmWriteComplete k set) s (kept s (writeComplete k set (begin s)))) ∧
  (∀ s k ls, Sound s → ((∀ x ∈ (slc s k).tst, x.ls ≠ ls ∨ x.writes = 0) ∨ tagsHeld s k ls) → Becomes (.hbmWriteComplete k (.tags ls)) s (begin s)) ∧
  (∀ s k ls x, (slc s k).tst.find? (·.ls == ls) = some x → x.writes ≠ 0 → ¬ tagsHeld s k ls → Becomes (.hbmWriteComplete k (.tags ls)) s
    (kept s (updTst (begin s) k ls fun e => { e with writes := e.writes - 1 }))) ∧
  (∀ s k set, ∀ x ∈ (slc (satFree s k set) k).sat, x ∈ (slc s k).sat ∧ (x.set = set →
    x.attached ≠ [] ∨ x.waiters ≠ [] ∨ x.reading = true ∨ x.writes ≠ 0 ∨ x.reserved ≠ [] ∨ x.recovering = true ∨ x.sweep = true)) ∧
  (∀ s k ls e, Sound s → ((∀ x ∈ (slc s k).tst, x.ls ≠ ls ∨ x.reading = false) ∨ tagsHeld s k ls) → Becomes (.tagSetReturn k ls e) s (begin s)) ∧
  (∀ s k ls e, Becomes (.tagSetReturn k ls e) s (kept s (settleFault (begin s) (tagReturn k ls e (begin s))))) ∧
  (∀ s k f, Sound s → (∀ x ∈ (slc s k).slots, x.frame ≠ f) → Becomes (.evictionCopyRead k f) s (begin s)) ∧
  (∀ s k f, Becomes (.evictionCopyRead k f) s (kept s (evictionCopy k f (begin s)))) ∧
  (∀ s k l f, (∀ t ∈ (slc s k).txns, t.msg.laddr = l → t.status ≠ .waiting) → Becomes (.waitingRequestOpen k ⟨l, f⟩) s (kept s (settle (begin s) k))) ∧
  (∀ s k l f t, Sound s → t ∈ (slc s k).txns → t.msg.laddr = l → t.status = .waiting → lineBusy (slc s k) l = true → Becomes (.waitingRequestOpen k ⟨l, f⟩) s (begin s)) ∧
  (∀ s k l f, Becomes (.waitingRequestOpen k ⟨l, f⟩) s (kept s (openWaiting k l f (begin s)))) ∧
  (∀ s k set l, Sound s → (s.cons.contained = true ∨ sliceOf l ≠ k ∨ sidx l ≠ set ∨ isCandidate s k l = false ∨ lineBusy (slc s k) l = true) →
    Becomes (.recoveryRecall k set l) s (begin s)) ∧
  (∀ s k set l, s.cons.contained = false → sliceOf l = k → sidx l = set → isCandidate s k l = true → lineBusy (slc s k) l = false →
    Becomes (.recoveryRecall k set l) s (kept s (settle (runPass (inTurn (begin s) k 7) k .internalPass (partOf s l) (fun u =>
      if isCandidate u k l && !(lineBusy (slc u k) l) then openRecovery u k l else .error .directory)) k))) ∧
  (∀ s, Sound s → s.pool.queue = [] → Becomes .allocate s (begin s)) ∧
  (∀ s, Becomes .allocate s (kept s (settleFault (begin s) (serveAlloc (wordsRead (begin s) (s.pool.queue.map fun r => (2, r.part))))))) ∧
  (∀ s r, nextAlloc s = some r → r ∈ s.pool.queue ∧ ((∃ q ∈ s.pool.queue, q.collect = true) → r.collect = true)) ∧
  (∀ s, s.pool.queue ≠ [] → ∃ r, nextAlloc s = some r) ∧
  (∀ s r, nextAlloc s = some r → s.cons.contained = false → ∃ c, ((serveAlloc s).slices[r.slice]).answers.map (fun a => (a.txn, a.laddr, a.code)) =
    ((slc s r.slice).answers.map fun a => (a.txn, a.laddr, a.code)) ++ [(r.txn, r.laddr, c)]) ∧
  (∀ s k, Sound s → (slc s k).answers = [] → Becomes (.allocatorAnswer k) s (begin s)) ∧
  (∀ s k, Becomes (.allocatorAnswer k) s (kept s (takeAnswer k (begin s)))) ∧
  (∀ s fx p c, fxState s fx ≠ .unallocated → allocate s fx p c = (s, .ok)) ∧
  (∀ s fx p c, fxState s fx = .unallocated →
    let need : Nat := if partTriple s p then 3 else 1
    let head := if c then 0 else cfgGet s keyHeadroom p
    let reserve := if c then 0 else cfgGet s keyWbReserve 0
    let high := (cfgGet s keyQuota p : Int) - head < ((partState s p).alloc + need : Int)
    let short := (freeExtents s : Int) - need < reserve ∨
      ((List.finRange 24).countP fun q => decide (0 < freeOf (s.ports[q]).mem) && eligible s q) < need
    (high → allocate s fx p c = (s, .quota)) ∧ (¬ high → short → allocate s fx p c = (s, .poolEmpty)) ∧
    (¬ high → ¬ short → (allocate s fx p c).2 = .ok ∧ fxState (allocate s fx p c).1 fx = .allocated ∧
      ∀ g, g ≠ fx → fxState (allocate s fx p c).1 g = fxState s g)) ∧
  (∀ s p c, (partState (refuseAlloc s p c) p).refused = true ∧ (refuseAlloc s p c).pool.fxs = s.pool.fxs ∧
    ((partState s p).refused = true → (partState (refuseAlloc s p c) p).firstCode = (partState s p).firstCode) ∧
    ((partState s p).refused = false → (partState (refuseAlloc s p c) p).firstCode = if c = .quota then 5 else 6)) ∧
  (∀ s fx p, fxState (makeLost s fx p) fx = .lost ∧ ∀ k : Fin 16, ∀ e ∈ (slc (makeLost s fx p) k).wbuf, fxOf s e.line ≠ fx) ∧
  (∀ s line, (fxState s (fxOf s line) = .unallocated → homeSource s line = .zero) ∧ (fxState s (fxOf s line) = .lost → homeSource s line = .poison) ∧
    (fxState s (fxOf s line) = .allocated → hasBitmap s (fxOf s line) = false → homeSource s line = .poison) ∧
    (fxState s (fxOf s line) = .allocated → hasBitmap s (fxOf s line) = true → (pageWritten s (fxOf s line) (linePage s line) = false ∨ lineDiscarded s line = true) →
      homeSource s line = .zero) ∧
    (fxState s (fxOf s line) = .allocated → hasBitmap s (fxOf s line) = true → pageWritten s (fxOf s line) (linePage s line) = true → lineDiscarded s line = false →
      homeSource s line = if (readCopies s line).all (·.2.isNone) then .poison else .back)) ∧
  (∀ s k f line d poison, let x := frameGet (installC s f line d poison) f
    (frameGet s f).state ≠ .free → x.valid.getLsbD (lineIn line) = true ∧ x.owned.getLsbD (lineIn line) = false ∧ x.poison.getLsbD (lineIn line) = poison ∧
      (installC s f line d poison).slices[k].txns = (slc s k).txns)

/-! ## Walkers, sweeps and copies -/

/-- R134, R135, R156, R157, R159, R160, R182, R251, R253, R303, R305: walkers, sweeps and copies. A walker at rest, a sweep that has ended and a job that does not exist do nothing. A walker visits O lines of present frames in its range, set by set, and rests
after the last; a line whose copy starts is no longer O in its frame. A DISABLED cache frees the present frames of its next set and no other frame. A disown sweep walks the
store sets in order, each through the store access table, and when every slice has ended the mask is cleared and each ID leaves disowning; no sweep runs in containment. A discard stops at the lines the device is home to; a copy of an extent skips unwritten pages, and
its end, or the end of its extent, ends the job. A bank's blocks are relocated row by row, to blocks outside every excluded bank. -/
def Obligations.WalkersAndSweepsGoOn : Prop :=
  let slc := fun (s : State) (k : Fin 16) => s.slices[k]
  let sets := fun (s : State) => setsPerSlice s.fuses.is144
  (∀ s k, Sound s → (slc s k).drain.active = false → (slc s k).flush.active = false → Becomes (.drainWalkerStep k) s (begin s)) ∧
  (∀ s k, Becomes (.drainWalkerStep k) s (kept s (walkerStep k (begin s)))) ∧
  (∀ is144 (w : Walker), (w.next + 1 < setsPerSlice is144 → walkerNext is144 w = { w with next := w.next + 1 }) ∧
    (setsPerSlice is144 ≤ w.next + 1 → (walkerNext is144 w).active = false)) ∧
  (∀ s k w f j, (f, j) ∈ walkTargets s k w → (frameGet s f).state = .present ∧ (frameGet s f).owned.getLsbD j = true ∧ j < 64 ∧
    (w.all = true ∨ (w.lo ≤ (frameGet s f).hank ∧ (frameGet s f).hank < w.hi))) ∧
  (∀ s k f j u w, walkLine s k f j = some (u, w) → (frameGet s f).state ≠ .free → (frameGet u f).owned = (frameGet s f).owned &&& ~~~ (oneHot j) ∧
    (frameGet u f).valid = (frameGet s f).valid) ∧
  (∀ s k, Sound s → (slc s k).sweepOff = none → Becomes (.disableSweepStep k) s (begin s)) ∧
  (∀ s k ls, (slc s k).sweepOff = some ls → ∃ t, exec (.disableSweepStep k) s = .next t ∧
    (slc t k).sweepOff = (if ls + 1 < sets s then some (ls + 1) else none) ∧ t.pool = s.pool ∧ t.ports = s.ports ∧ t.hbm.mem = s.hbm.mem ∧
    (∀ f, (frameGet t f).state ≠ (frameGet s f).state → (frameGet s f).state = .present ∧ (frameGet t f).state = .free) ∧
    ∀ i, i < 16 → (frameGet t (frameOf s.fuses.is144 k ls i)).state ≠ .present) ∧
  (∀ s k, Sound s → ((slc s k).disownPos = none ∨ s.cons.contained = true) → ∀ f, Becomes (.disownSweepStep ⟨k, f⟩) s (begin s)) ∧
  (∀ s k f, Becomes (.disownSweepStep ⟨k, f⟩) s (kept s (disownStep k f (begin s)))) ∧
  (∀ s k set work u, sweepSet k set work s = .ok u → (∃ x, satFind (slc s k) set = some x ∧ x.copyValid = true) →
    ∃ v, work s = .ok v ∧ u = satFree (updSat v k set fun e => { e with sweep := false }) k set) ∧
  (∀ s k set work, satFind (slc s k) set = none → (slc s k).sat.length < 64 → ∃ u x, sweepSet k set work s = .ok u ∧
    satFind (slc u k) set = some x ∧ x.reading = true ∧ x.sweep = true) ∧
  (∀ s, (∀ k : Fin 16, (slc s k).disownPos = none) → (disownEnd s).disown = 0 ∧ ∀ a, a < 64 → s.disown.getLsbD a = true →
    (s.bind a).status = .disowning → ((disownEnd s).bind a).status = (s.bind a).after ∧ ((disownEnd s).bind a).after = .idle) ∧
  (∀ s, (∃ k : Fin 16, (slc s k).disownPos ≠ none) → disownEnd s = s) ∧
  (∀ s k line, (dirOf s k line).v = (dirRaw (slc s k) line).v &&& ~~~ s.disown) ∧
  (∀ s k, Sound s → ((slc s k).persistPos = none ∨ findWork s 0x0503 = none ∨ s.cons.contained = true) → Becomes (.persistSweepStep k) s (begin s)) ∧
  (∀ s k, Becomes (.persistSweepStep k) s (kept s (persistStep k (begin s)))) ∧
  (∀ s k set base len, ∀ l ∈ persistLines s k set base len, base ≤ l * 64 ∧ l * 64 < base + len ∧ (dirOf s k l).state = .X) ∧
  (∀ s, Sound s → findWork s 0x0410 = none → findWork s 0x0413 = none → Becomes .discardStep s (begin s)) ∧
  (∀ s, Becomes .discardStep s (kept s (discardStep (begin s)))) ∧
  (∀ s stop n l, l < stop → (windowOf s (l * 64)).isSome = true → (homeOf s (l * 64)).1 = ownIndex s → nextMapped s stop (n + 1) l = l) ∧
  (∀ s, Sound s → (∀ w, findWork s 0x0412 = some w → w.entries ≠ []) → Becomes .pageCopyStep s (begin s)) ∧
  (∀ s, Becomes .pageCopyStep s (kept s (copyPhase (copyPhase (begin s))))) ∧
  (∀ s fx copy, Sound s → (s.cons.contained = true ∨ (∀ j, findJob s fx copy = some j → j.oldBx = none)) →
    Becomes (.extentRetirementCopy fx copy) s (begin s)) ∧
  (∀ s fx copy j, s.cons.contained = false → findJob s fx copy = some j → j.oldBx.isSome = true →
    Becomes (.extentRetirementCopy fx copy) s (kept s (checkWorks (copyStep (begin s) j)))) ∧
  (∀ s j e, fxEntry s j.fx = some e → e.state = .allocated → j.next < 32768 → pageWritten s j.fx (j.next / 64) = false →
    copyStep s j = setJob s j { j with next := (j.next / 64 + 1) * 64 }) ∧
  (∀ s j e, fxEntry s j.fx = some e → e.state = .allocated → 32768 ≤ j.next → spareBusy s j = false → copyStep s j = checkWorks (finishCopy s e j)) ∧
  (∀ s j, (fxEntry s j.fx = none ∨ ∃ e, fxEntry s j.fx = some e ∧ e.state ≠ .allocated) → copyStep s j = orphanCopy s j) ∧
  (∀ s, Sound s → s.hbm.bankJob = none → s.mgmt.works = [] → Becomes .bankRelocation s (begin s)) ∧
  (∀ s, Becomes .bankRelocation s (kept s (checkWorks (relocateNext (begin s))))) ∧
  (∀ s i row bank spare, s.hbm.bankJob = some (i, row) → s.hbm.banks[i]? = some bank → nextSpareBlock s = some spare → row < metaRows s.fuses.is144 →
    (relocateNext s).hbm.bankJob = some (i, row + 1) ∧
    (blockOf s.fuses.is144 bank.1 bank.2.1 bank.2.2.1 bank.2.2.2 row * 4096 < cacheBase → (i * 8192 + row, spare) ∈ (relocateNext s).hbm.reloc)) ∧
  (∀ s spare, nextSpareBlock s = some spare → ∀ b ∈ s.hbm.banks, blockIn s.fuses.is144 spare b = false)

/-! ## Audits, patrol, scrub and HBM -/

/-- R161, R162, R163, R239, R246, R247, R248, R256, R257, R261, R269, R364: the device's own checks. An audit in which every identity holds notes no failure and changes nothing else; one that fails, and did not fail at the last audit, is
a conservation fault with its code, the first of which is latched. A census tally splits the frames of the sets it has passed. A triplicated word two of whose copies agree is
no fault, and one whose copies are all different is; a word read is whole again. Patrol and scrub that are off or not running change nothing, a line skipped or covered moves them on alone, a line of a memory port is asked for
with a MEM_RD of partition 0, and a UE of the scrub in a line of a frame retagged since is discarded as skipped. An access of a bank that stands at RAAMMT waits, and any other raises RAA. The HBM controllers refresh, manage RAA, follow the thermal steps of
Table MSC-7 with 3 degrees of hysteresis, and retrain only while the cache is DISABLED; what refresh takes from RAA is a free value (log entries 3, 41). -/
def Obligations.ChecksAndHbmController : Prop :=
  let stk := fun (s : State) (i : Fin 4) => s.hbm.stk[i]
  (∀ s who, Sound s → s.prot.upsets = [] → (∀ x ∈ identitiesOf s who, x.2.2 = true) → failingOf s who = [] → Becomes (.audit who) s (begin s)) ∧
  (∀ s who, Becomes (.audit who) s (kept s (settleFault (begin s) (audit who (match who with | .port p => wordRead (begin s) 0 p | _ => begin s))))) ∧
  (∀ s who i sub, (i, sub, false) ∈ identitiesOf s who → (i, sub) ∉ failingOf s who → (audit who s).cons.contained = true) ∧
  (∀ s who, (∀ x ∈ identitiesOf s who, x.2.2 = false → (x.1, x.2.1) ∈ failingOf s who) → (audit who s).cons = s.cons) ∧
  (∀ s who, failingOf (audit who s) who = ((identitiesOf s who).filter fun x => !x.2.2).map fun x => (x.1, x.2.1)) ∧
  (∀ s code, s.cons.contained = false → (contain s code).cons.contained = true ∧ (contain s code).cons.first = code) ∧
  (∀ s code, s.cons.contained = true → (contain s code).cons = { s.cons with later := min (s.cons.later + 1) 255 }) ∧
  (∀ i sub (k : Fin 16) (p : Fin 24), auditCode i sub (.slice k) = i + k.val * 2 ^ 16 + sub * 2 ^ 24 ∧
    auditCode i sub (.port p) = i + 2 ^ 8 + p.val * 2 ^ 16 + sub * 2 ^ 24 ∧ auditCode i sub .allocator = i + 6 * 2 ^ 8 + sub * 2 ^ 24) ∧
  (∀ s (p : Fin 24), Sound s → Becomes (.censusStep (.port p)) s (begin s)) ∧
  (∀ s k, Sound s → s.hbm.initDone = false → Becomes (.censusStep (.slice k)) s (begin s)) ∧
  (∀ s, Sound s → s.pool.rebuilt = false → Becomes (.censusStep .allocator) s (begin s)) ∧
  (∀ s k, s.hbm.initDone = true → Becomes (.censusStep (.slice k)) s (kept s (settleFault (begin s) (censusSlice k (begin s))))) ∧
  (∀ s, s.pool.rebuilt = true → Becomes (.censusStep .allocator) s (kept s (settleFault (begin s) (censusPool (begin s))))) ∧
  (∀ s k n, let c := frameTally s k n
    c.next = n ∧ c.present ≤ s.hbm.frames.length ∧ c.present + c.retired ≤ s.hbm.frames.length ∧ (c.present + c.retired ≤ n * 16 → c.present + c.free + c.retired = n * 16)) ∧
  (∀ s, Sound s → s.prot.upsets = [] → Becomes (.tmrSweep []) s (begin s)) ∧
  (∀ s (u : TmrUpset), (u.copies.1 = u.copies.2.1 ∨ u.copies.2.1 = u.copies.2.2 ∨ u.copies.1 = u.copies.2.2) → (tmrVote s u).cons = s.cons) ∧
  (∀ s (u : TmrUpset), u.copies.1 ≠ u.copies.2.1 → u.copies.2.1 ≠ u.copies.2.2 → u.copies.1 ≠ u.copies.2.2 → (tmrVote s u).cons.contained = true) ∧
  (∀ s w i, ∀ u ∈ (wordRead s w i).prot.upsets, u ∈ s.prot.upsets ∧ ¬ (u.word = w ∧ u.index = i)) ∧
  (∀ s w i, (∀ u ∈ s.prot.upsets, u.word ≠ w ∨ u.index ≠ i) → wordRead s w i = s) ∧
  (∀ s (us : List TmrUpset), Becomes (.tmrSweep us) s (kept s (settleFault (begin s) (tmrSweep us (begin s))))) ∧
  (∀ s e, Sound s → (cfgGet s keyPatrolHbm 0 = 0 ∨ s.hbm.initDone = false) → Becomes (.patrolRead .hbm e) s (begin s)) ∧
  (∀ s e, Sound s → cfgGet s keyPatrolHbm 0 ≠ 0 → s.hbm.initDone = true → (scrubCovers s true 0 s.prot.patrolHbm = true ∨ skipHbm s s.prot.patrolHbm = true) →
    Becomes (.patrolRead .hbm e) s { begin s with prot := { s.prot with
      patrolHbm := if s.prot.patrolHbm + 64 < hbmTop s.fuses.is144 then s.prot.patrolHbm + 64 else 0 } }) ∧
  (∀ s t e, Becomes (.patrolRead t e) s (kept s (patrolRead t e (begin s)))) ∧
  (∀ s p e, Sound s → (cfgGet s keyPatrolBacking 0 = 0 ∨ (s.ports[p]).mem.taken = false) → Becomes (.patrolRead (.backing p) e) s (begin s)) ∧
  (∀ s (p : Fin 24) e, cfgGet s keyPatrolBacking 0 ≠ 0 → (s.ports[p]).mem.taken = true → (let a := s.prot.patrolBacking[p]
    let skips := scrubCovers s false p.val a = true ∨ skipBacking s p a = true ∨ (s.ports[p]).mem.unreachable = true
    ∃ t, exec (.patrolRead (.backing p) e) s = .next t ∧ t.prot.patrolBacking[p] = (if a + 1 < (s.ports[p]).mem.ek * 32768 then a + 1 else 0) ∧
      (skips → t.ports = s.ports) ∧
      (¬ skips → ∃ r : MemReq, (t.ports[p]).mem.queue = (s.ports[p]).mem.queue ++ [r] ∧ r.kind = 0 ∧ r.maddr = a ∧ r.part = 0))) ∧
  (∀ s e r, Sound s → (s.prot.scrub.state ≠ 1 ∨ s.prot.scrub.stop ≤ s.prot.scrub.next) → Becomes (.scrubStep e r) s (begin s)) ∧
  (∀ s e r, Sound s → s.prot.scrub.state = 1 → s.prot.scrub.hbm = true → skipHbm s s.prot.scrub.next = true → s.prot.scrub.next + 64 < s.prot.scrub.stop →
    Becomes (.scrubStep e r) s { begin s with prot := { s.prot with
      scrub := { s.prot.scrub with next := s.prot.scrub.next + 64, skipped := s.prot.scrub.skipped + 1 } } }) ∧
  (∀ s (p : Fin 24) e z, s.prot.scrub.state = 1 → s.prot.scrub.hbm = false → s.prot.scrub.port = p.val → s.prot.scrub.next < s.prot.scrub.stop →
    skipBacking s p s.prot.scrub.next = false → (s.ports[p]).mem.taken = true → (s.ports[p]).mem.unreachable = false →
    ∃ t, ∃ r : MemReq, exec (.scrubStep e z) s = .next t ∧ t.prot.scrub = { s.prot.scrub with next := s.prot.scrub.next + 1, waiting := s.prot.scrub.waiting + 1 } ∧
      (t.ports[p]).mem.queue = (s.ports[p]).mem.queue ++ [r] ∧ r.kind = 0 ∧ r.maddr = s.prot.scrub.next ∧ r.part = 0) ∧
  (∀ s e, (let ha := s.prot.scrub.next
    s.prot.scrub.state = 1 → s.prot.scrub.hbm = true → isCacheData s ha = true → skipHbm s ha = false → ha + 64 < s.prot.scrub.stop →
    (scrubHbm ((begin s).updScrub fun x => { x with next := x.next + 64 }) ha e).2.ue = true →
    ∃ t, exec (.scrubStep e true) s = .next t ∧ t.prot.scrub = { s.prot.scrub with next := ha + 64, skipped := s.prot.scrub.skipped + 1 } ∧
      t.hbm.frames = s.hbm.frames)) ∧
  (∀ s e r, Becomes (.scrubStep e r) s (kept s (scrubStep e r (begin s)))) ∧
  (∀ s (i : Fin 4) a, (stk s i).raammt ≤ raaOf (stk s i) a.bank → stk (activate s i a) i = { stk s i with held := (stk s i).held ++ [a] }) ∧
  (∀ s (i : Fin 4) a, raaOf (stk s i) a.bank < (stk s i).raammt → (∀ x ∈ (stk s i).held, x.bank ≠ a.bank) →
    raaOf (stk (activate s i a) i) a.bank = raaOf (stk s i) a.bank + 1 ∧ (stk (activate s i a) i).held = (stk s i).held) ∧
  (∀ c a f, (scrubCount c a f).read = c.read + 1 ∧ (c.addrs.length ≤ 16 → (scrubCount c a f).addrs.length ≤ 16) ∧ (scrubCount c a f).next = c.next) ∧
  (∀ s i b, Sound s → (stk s i).trained = false → Becomes (.hbmRefresh i b) s (begin s)) ∧
  (∀ s i b, (stk s i).trained = true → ∃ t, exec (.hbmRefresh i b) s = .next t ∧ (stk t i).refreshes = (stk s i).refreshes + 1 ∧
    ((∀ a ∈ (stk s i).held, a.bank ≠ b) → raaOf (stk t i) b = min (Config.freeNat s.fresh) (raaOf (stk s i) b)) ∧ (∀ j : Fin 4, j ≠ i → stk t j = stk s j) ∧ t.hbm.mem = s.hbm.mem) ∧
  (∀ s i b, Sound s → ((stk s i).trained = false ∨ raaOf (stk s i) b < rfmAt s i) → Becomes (.rfmpb i b) s (begin s)) ∧
  (∀ s i b, (stk s i).trained = true → rfmAt s i ≤ raaOf (stk s i) b → ∃ t, exec (.rfmpb i b) s = .next t ∧ (stk t i).rfms = (stk s i).rfms + 1 ∧
    ((∀ a ∈ (stk s i).held, a.bank ≠ b) → raaOf (stk t i) b = raaOf (stk s i) b - (stk s i).raaimt / max 1 (cfgGet s keyRfmDiv 0)) ∧ t.hbm.mem = s.hbm.mem) ∧
  (∀ s i t, let new := thermalStep (stk s i).step t
    Sound s → Becomes (.hbmTempRead i t) s { begin s with hbm := { s.hbm with stk := s.hbm.stk.set i { stk s i with temp := t, step := new } } } ∧
    (new ≠ (stk s i).step → Notes (.hbmTempRead i t) s { ntype := 3, arg := i.val + new * 4 + (if (stk s i).step < new then 16 else 0) })) ∧
  (∀ (cur : Nat) (t : Int), (1000 < t → thermalStep cur t = 3) ∧ (970 < t → cur = 3 → thermalStep cur t = 3) ∧ (950 < t → t ≤ 970 → thermalStep cur t = 2) ∧
    (850 < t → t ≤ 920 → thermalStep cur t = 1) ∧ (t ≤ 820 → thermalStep cur t = 0) ∧ (cur = 0 → t ≤ 850 → thermalStep cur t = 0)) ∧
  (∀ s i inMargin, Sound s → (stk s i).trained = true → Becomes (.hbmInterfaceCalibration i inMargin) s
    { begin s with hbm := { s.hbm with stk := s.hbm.stk.set i { stk s i with
      calibrations := (stk s i).calibrations + 1, retrainPending := (stk s i).retrainPending || !inMargin } } }) ∧
  (∀ s i inMargin, Sound s → (stk s i).trained = false → Becomes (.hbmInterfaceCalibration i inMargin) s (begin s)) ∧
  (∀ s i, Sound s → (stk s i).retrainPending = true → s.hbm.cache = .disabled → Becomes (.hbmRetrain i) s
    { begin s with hbm := { s.hbm with stk := s.hbm.stk.set i { stk s i with retrainPending := false, trained := true } } }) ∧
  (∀ s i, Sound s → ((stk s i).retrainPending = false ∨ s.hbm.cache ≠ .disabled) → Becomes (.hbmRetrain i) s (begin s))

/-! ## The ledger and observation while the device runs -/

/-- R334, R336, R337, R338, R366 to R371, R373, R376, R377: the ledger and the observation port while the device runs. A checkpoint is taken once 24,576 records have been appended since the last: it writes the state, an end record and the root, and then the ledger
holds every counter's value; a counter that has risen since it was written is written; the calendar is written while it is valid; POWER_ON_TIME counts a second with PWRGOOD. Aging margins follow
R377 and are lowest-held; one whose sample failed is a free value (log entry 3). A snapshot is skipped while the one before it is sent, and uses a sequence number either way; the stream begins with SYNC words and
sends one again after 4,096 words, and takes the next record of the trace that it can see. -/
def Obligations.LedgerAndObservationTicks : Prop :=
  (∀ s, Sound s → (ledgerWritable s = false ∨ s.led.sinceCkpt < 24576) → Becomes .ledgerCheckpoint s (begin s)) ∧
  (∀ s, Sound s → ledgerWritable s = true → 24576 ≤ s.led.sinceCkpt → ∃ t r, exec .ledgerCheckpoint s = .next t ∧
    (∀ x ∈ t.led.stal, x.written = x.value) ∧ rootValue t = some r ∧ r.ckptSlot = s.led.head ∧ r.ckptLseq = s.led.lseq ∧
    t.led.sinceCkpt = (ledgerState s).length + 1 ∧ t.led.lseq = s.led.lseq + (ledgerState s).length + 1) ∧
  (∀ s cls body ck, let u := ledgerAppend s cls body ck
    u.led.lseq = s.led.lseq + 1 ∧ u.led.head = (if 65535 ≤ s.led.head then 16 else s.led.head + 1) ∧
    ∃ r, u.led.log = (r :: s.led.log).take 65520 ∧ r.lseq = s.led.lseq ∧ r.cls = cls ∧ r.body = padTo 40 body ∧ r.checkpoint = ck) ∧
  (∀ s id i, Sound s → (ledgerWritable s = false ∨ ∀ x ∈ s.led.stal, (x.id = id ∧ x.index = i) → x.value ≤ x.written) →
    Becomes (.stalagmiteFlush id i) s (begin s)) ∧
  (∀ s id i x, Sound s → ledgerWritable s = true → x ∈ s.led.stal → x.id = id → x.index = i → x.written < x.value →
    ∃ t, exec (.stalagmiteFlush id i) s = .next t ∧ t.led.lseq = s.led.lseq + 1 ∧ stalGet t id i = x.value ∧
      (∀ y ∈ t.led.stal, y.id = id → y.index = i → y.written = x.value)) ∧
  (∀ s, Sound s → (ledgerWritable s = false ∨ s.cal.valid = false) → Becomes .calendarLedgerWrite s (begin s)) ∧
  (∀ s, ledgerWritable s = true → s.cal.valid = true → ∃ t, exec .calendarLedgerWrite s = .next t ∧ t.led.lastCal = (s.cal.sec, s.cal.ns) ∧
    t.led.lseq = s.led.lseq + 1 ∧ ∃ r, t.led.log.head? = some r ∧ r.cls = 8 ∧
      r.body = padTo 40 (leBytes 8 s.cal.sec ++ leBytes 4 s.cal.ns ++ leBytes 1 0)) ∧
  (∀ s, Sound s → s.clk.pwrgood = true → ∃ t, exec .powerOnTimeTick s = .next t ∧ stalGet t 1 0 = stalGet s 1 0 + 1 ∧
    ∀ id i, (id, i) ≠ (1, 0) → stalGet t id i = stalGet s id i) ∧
  (∀ s, Sound s → s.clk.pwrgood = false → Becomes .powerOnTimeTick s (begin s)) ∧
  (∀ s rs, rs.length = 32 → (∀ r ∈ rs, r ≠ 0) → ∃ t, exec (.agingSample rs) s = .next t ∧
    ∀ i : Fin 32, (t.led.aging[i]).margin = marginOf (rs.getD i.val 0) (s.led.aging[i]).baseline ∧
      (t.led.aging[i]).lowest = min (s.led.aging[i]).lowest (t.led.aging[i]).margin ∧ (t.led.aging[i]).baseline = (s.led.aging[i]).baseline) ∧
  (∀ r b, 0 < b → marginOf r b ≤ 1000 ∧ marginOf b b = 1000 ∧ (20 * r ≤ 19 * b → marginOf r b = 0)) ∧
  (∀ s, Sound s → s.obs.stalled = [] → Becomes .traceStallTimeout s (begin s)) ∧
  (∀ s, Becomes .traceStallTimeout s (kept s (stallTimeout (begin s)))) ∧
  (∀ s, Sound s → (s.clk.reset.isSome = true ∨ cfgGet s keyObsStream 0 ≠ 2) → Becomes .obsSnapshot s (begin s)) ∧
  (∀ s, Sound s → s.clk.reset = none → cfgGet s keyObsStream 0 = 2 → snapshotSending s = true →
    Becomes .obsSnapshot s { begin s with obs := { s.obs with snapSeq := (s.obs.snapSeq + 1) % 2 ^ 24 } }) ∧
  (∀ s, s.clk.reset = none → cfgGet s keyObsStream 0 = 2 → snapshotSending s = false →
    ∃ t, exec .obsSnapshot s = .next t ∧ t.obs.snapQ.length = 30 ∧ t.obs.snapSeq = (s.obs.snapSeq + 1) % 2 ^ 24 ∧ t.obs.ctrs = s.obs.ctrs ∧ t.out = []) ∧
  (∀ s, Sound s → (s.clk.reset.isSome = true ∨ cfgGet s keyObsStream 0 = 0) → Becomes .obsWord s (begin s)) ∧
  (∀ s n, Sound s → s.clk.reset = none → cfgGet s keyObsStream 0 ≠ 0 → s.obs.obsSync = n + 1 →
    Becomes .obsWord s { begin s with obs := { s.obs with obsSync := n, obsSince := 0 }, out := [.obs 0x5A5AC3C30F0FF0F0] }) ∧
  (∀ s, Sound s → s.clk.reset = none → cfgGet s keyObsStream 0 ≠ 0 → s.obs.obsSync = 0 → s.obs.obsRec = [] → 4096 ≤ s.obs.obsSince →
    Becomes .obsWord s { begin s with obs := { s.obs with obsSync := 0, obsSince := 0 }, out := [.obs 0x5A5AC3C30F0FF0F0] }) ∧
  (∀ s, Sound s → s.clk.reset = none → cfgGet s keyObsStream 0 ≠ 0 → s.obs.obsSync = 0 → s.obs.obsRec = [] → s.obs.obsSince < 4096 →
    s.obs.snapQ = [] → s.obs.trace.length ≤ s.obs.traceHidden →
    Becomes .obsWord s { begin s with obs := { s.obs with obsSince := s.obs.obsSince + 1 }, out := [.obs 0] }) ∧
  (∀ s w ws, s.clk.reset = none → cfgGet s keyObsStream 0 ≠ 0 → s.obs.obsSync = 0 → s.obs.obsRec = w :: ws → s.obs.stalled = [] →
    ∃ t, exec .obsWord s = .next t ∧ t.out = [.obs w.toNat] ∧ t.obs.obsRec = ws ∧ t.obs.obsSince = s.obs.obsSince + 1 ∧ t.obs.trace = s.obs.trace ∧
      t.obs.traceFreed = s.obs.traceFreed + (if s.obs.obsFromTrace then 1 else 0)) ∧
  (∀ s w ws rs, s.clk.reset = none → cfgGet s keyObsStream 0 ≠ 0 → s.obs.obsSync = 0 → s.obs.obsRec = [] → s.obs.obsSince < 4096 → s.obs.snapQ = [] →
    s.obs.trace = (w :: ws) :: rs → s.obs.traceHidden ≤ rs.length →
    ∃ t, exec .obsWord s = .next t ∧ t.out = [.obs w.toNat] ∧ t.obs.obsRec = ws ∧ t.obs.trace = rs ∧ t.obs.traceFreed = s.obs.traceFreed + 1)

/-! ## Three rules, whole -/

/-- R92: a RD_SHARED is completed with DATA_E exactly when E_ALLOWED is 1, the E-grant flag of the line's partition is set, and the line is in I or V holds the requester's bit alone; with
DATA_S otherwise; and the completion fixed as it opens is the one it closes with. -/
def Obligations.ReadSharedIsGrantedExclusive : Prop :=
  (∀ s (t : Txn) (d : DirEntry), t.kind = .req .rdShared →
    (homeFlow s t d).2.2 = if attrE t.msg.attr = true ∧ bitOf (cfgGet s keyFlags t.part) 0 = true ∧ (d.state = .I ∨ d.v = reqBit t) then .dataE else .dataS) ∧
  (∀ s k (t : Txn) g, t.kind = .req .rdShared → t.grant = some g → ∃ u x p, closeData s k t = .ok (u, g, x, p, 0))

/-- R65: a payload in Line form is poisoned when ATTR.POISON or META.POISON is 1, and one in Mask form when ATTR.POISON is; a message is queued with that poison, and the home sends a poisoned payload
with both set. -/
def Obligations.PoisonOfPayloads : Prop :=
  (∀ op a w, opHasData op = true → opMaskForm op = false → (payloadPoison op a w = true ↔ attrPoison a = true ∨ w.getLsbD 0 = true)) ∧
  (∀ op a w, opHasData op = true → opMaskForm op = true → (payloadPoison op a w = true ↔ attrPoison a = true)) ∧
  (∀ s p op h d w, (rxMsg s p op h d w).poison = payloadPoison op h.attr w) ∧
  (∀ s p (m : OutMsg), opHasData m.op = true → m.dest < 256 → m.tag < 4096 → m.laddr < 2 ^ 46 → ownIndex s < 256 → m.aop < 256 → m.size < 256 →
    let slots := outSlots s p m
    slots.length = 5 ∧ attrPoison (decodeHdr (slots.headD [])).attr = m.poison ∧ Nat.testBit (decodeData slots.tail).2 0 = m.poison ∧
    (decodeData slots.tail).1 = m.data)

/-- R284: a rising watermark crosses as its count goes from at most LEVEL to above it, the falling one as its count goes from at least LEVEL to below it; a crossing has effect only while CROSSED is 0: CROSSED becomes 1 and one WATERMARK
notification is sent; CROSSED then stays and nothing more is sent. Every command's step is watched so. (The pool's watermark crosses only once step 14 of start-up has ended, Table HOST-8; the first notification has room in the intake.) -/
def Obligations.WatermarksCrossOnce : Prop :=
  let crossed := fun (x : State) (w : Fin 49) => (x.mgmt.wms[w]).crossed
  let sent := fun (s u : State) (w : Fin 49) =>
    ((watch s u).mgmt.intake.drop u.mgmt.intake.length).countP fun e => e.ntype == 2 && e.arg == (wmEvent u w).arg
  let room := fun (u : State) => u.mgmt.intake.length + 49 ≤ 256
  (∀ c s t, exec c s = .next t → ∃ u, t = hold s (latch s (watch s u)) ∨ t = hold s (watch s u)) ∧
  (∀ s u (w : Fin 49), w.val < 48 → wmLevel u w ≠ 0 → crossed u w = false → wmCount s w ≤ wmLevel u w → wmLevel u w < wmCount u w → room u →
    crossed (watch s u) w = true ∧ sent s u w = 1) ∧
  (∀ s u, wmLevel u 48 ≠ 0 → crossed u 48 = false → wmLevel u 48 ≤ wmCount s 48 → wmCount u 48 < wmLevel u 48 → 14 ∈ s.clk.stepDone → 14 ∈ u.clk.stepDone → room u →
    crossed (watch s u) 48 = true ∧ sent s u 48 = 1) ∧
  (∀ s u (w : Fin 49), crossed u w = true → room u → crossed (watch s u) w = true ∧ sent s u w = 0) ∧
  (∀ s u (w : Fin 49), crossed u w = false → ((s.mgmt.wms[w]).recheck && (u.mgmt.wms[w]).recheck) = false → room u →
    (wmLevel u w = 0 ∨ (w.val < 48 ∧ (wmLevel u w < wmCount s w ∨ wmCount u w ≤ wmLevel u w)) ∨ (w.val = 48 ∧ (wmCount s w < wmLevel u w ∨ wmLevel u w ≤ wmCount u w))) →
    crossed (watch s u) w = false ∧ sent s u w = 0)
end

