-- ==== Sys2Proof/Laws/State.lean ====
section
/-! SUPPORT. What each update of the state leaves of every field: one lemma per field per update, true by definition. -/

namespace Sys2Proof.Machine
open Sys2Proof

@[simp] theorem State.updPort_pending (s : State) (p : Fin 24) (f : Port → Port) : (s.updPort p f).pending = s.pending := rfl
@[simp] theorem State.updPort_out (s : State) (p : Fin 24) (f : Port → Port) : (s.updPort p f).out = s.out := rfl
@[simp] theorem State.updPort_fresh (s : State) (p : Fin 24) (f : Port → Port) : (s.updPort p f).fresh = s.fresh := rfl
@[simp] theorem State.updPort_fuses (s : State) (p : Fin 24) (f : Port → Port) : (s.updPort p f).fuses = s.fuses := rfl
@[simp] theorem State.updPort_ports (s : State) (p : Fin 24) (f : Port → Port) : (s.updPort p f).ports = s.ports.set p (f s.ports[p]) := rfl
@[simp] theorem State.updPort_slices (s : State) (p : Fin 24) (f : Port → Port) : (s.updPort p f).slices = s.slices := rfl
@[simp] theorem State.updPort_binds (s : State) (p : Fin 24) (f : Port → Port) : (s.updPort p f).binds = s.binds := rfl
@[simp] theorem State.updPort_hbm (s : State) (p : Fin 24) (f : Port → Port) : (s.updPort p f).hbm = s.hbm := rfl
@[simp] theorem State.updPort_pool (s : State) (p : Fin 24) (f : Port → Port) : (s.updPort p f).pool = s.pool := rfl
@[simp] theorem State.updPort_disown (s : State) (p : Fin 24) (f : Port → Port) : (s.updPort p f).disown = s.disown := rfl
@[simp] theorem State.updPort_prot (s : State) (p : Fin 24) (f : Port → Port) : (s.updPort p f).prot = s.prot := rfl
@[simp] theorem State.updPort_cons (s : State) (p : Fin 24) (f : Port → Port) : (s.updPort p f).cons = s.cons := rfl
@[simp] theorem State.updPort_mgmt (s : State) (p : Fin 24) (f : Port → Port) : (s.updPort p f).mgmt = s.mgmt := rfl
@[simp] theorem State.updPort_dom (s : State) (p : Fin 24) (f : Port → Port) : (s.updPort p f).dom = s.dom := rfl
@[simp] theorem State.updPort_obs (s : State) (p : Fin 24) (f : Port → Port) : (s.updPort p f).obs = s.obs := rfl
@[simp] theorem State.updPort_clk (s : State) (p : Fin 24) (f : Port → Port) : (s.updPort p f).clk = s.clk := rfl
@[simp] theorem State.updPort_cal (s : State) (p : Fin 24) (f : Port → Port) : (s.updPort p f).cal = s.cal := rfl
@[simp] theorem State.updPort_led (s : State) (p : Fin 24) (f : Port → Port) : (s.updPort p f).led = s.led := rfl
@[simp] theorem State.updPort_sec (s : State) (p : Fin 24) (f : Port → Port) : (s.updPort p f).sec = s.sec := rfl
@[simp] theorem State.updPort_hst (s : State) (p : Fin 24) (f : Port → Port) : (s.updPort p f).hst = s.hst := rfl

@[simp] theorem State.updSlc_pending (s : State) (k : Fin 16) (f : Slice → Slice) : (s.updSlc k f).pending = s.pending := rfl
@[simp] theorem State.updSlc_out (s : State) (k : Fin 16) (f : Slice → Slice) : (s.updSlc k f).out = s.out := rfl
@[simp] theorem State.updSlc_fresh (s : State) (k : Fin 16) (f : Slice → Slice) : (s.updSlc k f).fresh = s.fresh := rfl
@[simp] theorem State.updSlc_fuses (s : State) (k : Fin 16) (f : Slice → Slice) : (s.updSlc k f).fuses = s.fuses := rfl
@[simp] theorem State.updSlc_ports (s : State) (k : Fin 16) (f : Slice → Slice) : (s.updSlc k f).ports = s.ports := rfl
@[simp] theorem State.updSlc_binds (s : State) (k : Fin 16) (f : Slice → Slice) : (s.updSlc k f).binds = s.binds := rfl
@[simp] theorem State.updSlc_hbm (s : State) (k : Fin 16) (f : Slice → Slice) : (s.updSlc k f).hbm = s.hbm := rfl
@[simp] theorem State.updSlc_pool (s : State) (k : Fin 16) (f : Slice → Slice) : (s.updSlc k f).pool = s.pool := rfl
@[simp] theorem State.updSlc_disown (s : State) (k : Fin 16) (f : Slice → Slice) : (s.updSlc k f).disown = s.disown := rfl
@[simp] theorem State.updSlc_prot (s : State) (k : Fin 16) (f : Slice → Slice) : (s.updSlc k f).prot = s.prot := rfl
@[simp] theorem State.updSlc_cons (s : State) (k : Fin 16) (f : Slice → Slice) : (s.updSlc k f).cons = s.cons := rfl
@[simp] theorem State.updSlc_mgmt (s : State) (k : Fin 16) (f : Slice → Slice) : (s.updSlc k f).mgmt = s.mgmt := rfl
@[simp] theorem State.updSlc_dom (s : State) (k : Fin 16) (f : Slice → Slice) : (s.updSlc k f).dom = s.dom := rfl
@[simp] theorem State.updSlc_obs (s : State) (k : Fin 16) (f : Slice → Slice) : (s.updSlc k f).obs = s.obs := rfl
@[simp] theorem State.updSlc_clk (s : State) (k : Fin 16) (f : Slice → Slice) : (s.updSlc k f).clk = s.clk := rfl
@[simp] theorem State.updSlc_cal (s : State) (k : Fin 16) (f : Slice → Slice) : (s.updSlc k f).cal = s.cal := rfl
@[simp] theorem State.updSlc_led (s : State) (k : Fin 16) (f : Slice → Slice) : (s.updSlc k f).led = s.led := rfl
@[simp] theorem State.updSlc_sec (s : State) (k : Fin 16) (f : Slice → Slice) : (s.updSlc k f).sec = s.sec := rfl
@[simp] theorem State.updSlc_hst (s : State) (k : Fin 16) (f : Slice → Slice) : (s.updSlc k f).hst = s.hst := rfl

@[simp] theorem State.emit_pending (s : State) (o : Output) : (s.emit o).pending = s.pending := rfl
@[simp] theorem State.emit_out (s : State) (o : Output) : (s.emit o).out = s.out ++ [o] := rfl
@[simp] theorem State.emit_fresh (s : State) (o : Output) : (s.emit o).fresh = s.fresh := rfl
@[simp] theorem State.emit_fuses (s : State) (o : Output) : (s.emit o).fuses = s.fuses := rfl
@[simp] theorem State.emit_ports (s : State) (o : Output) : (s.emit o).ports = s.ports := rfl
@[simp] theorem State.emit_slices (s : State) (o : Output) : (s.emit o).slices = s.slices := rfl
@[simp] theorem State.emit_binds (s : State) (o : Output) : (s.emit o).binds = s.binds := rfl
@[simp] theorem State.emit_hbm (s : State) (o : Output) : (s.emit o).hbm = s.hbm := rfl
@[simp] theorem State.emit_pool (s : State) (o : Output) : (s.emit o).pool = s.pool := rfl
@[simp] theorem State.emit_disown (s : State) (o : Output) : (s.emit o).disown = s.disown := rfl
@[simp] theorem State.emit_prot (s : State) (o : Output) : (s.emit o).prot = s.prot := rfl
@[simp] theorem State.emit_cons (s : State) (o : Output) : (s.emit o).cons = s.cons := rfl
@[simp] theorem State.emit_mgmt (s : State) (o : Output) : (s.emit o).mgmt = s.mgmt := rfl
@[simp] theorem State.emit_dom (s : State) (o : Output) : (s.emit o).dom = s.dom := rfl
@[simp] theorem State.emit_obs (s : State) (o : Output) : (s.emit o).obs = s.obs := rfl
@[simp] theorem State.emit_clk (s : State) (o : Output) : (s.emit o).clk = s.clk := rfl
@[simp] theorem State.emit_cal (s : State) (o : Output) : (s.emit o).cal = s.cal := rfl
@[simp] theorem State.emit_led (s : State) (o : Output) : (s.emit o).led = s.led := rfl
@[simp] theorem State.emit_sec (s : State) (o : Output) : (s.emit o).sec = s.sec := rfl
@[simp] theorem State.emit_hst (s : State) (o : Output) : (s.emit o).hst = s.hst := rfl

@[simp] theorem State.updPool_pending (s : State) (f : Pool → Pool) : (s.updPool f).pending = s.pending := rfl
@[simp] theorem State.updPool_out (s : State) (f : Pool → Pool) : (s.updPool f).out = s.out := rfl
@[simp] theorem State.updPool_fresh (s : State) (f : Pool → Pool) : (s.updPool f).fresh = s.fresh := rfl
@[simp] theorem State.updPool_fuses (s : State) (f : Pool → Pool) : (s.updPool f).fuses = s.fuses := rfl
@[simp] theorem State.updPool_ports (s : State) (f : Pool → Pool) : (s.updPool f).ports = s.ports := rfl
@[simp] theorem State.updPool_slices (s : State) (f : Pool → Pool) : (s.updPool f).slices = s.slices := rfl
@[simp] theorem State.updPool_binds (s : State) (f : Pool → Pool) : (s.updPool f).binds = s.binds := rfl
@[simp] theorem State.updPool_hbm (s : State) (f : Pool → Pool) : (s.updPool f).hbm = s.hbm := rfl
@[simp] theorem State.updPool_pool (s : State) (f : Pool → Pool) : (s.updPool f).pool = f s.pool := rfl
@[simp] theorem State.updPool_disown (s : State) (f : Pool → Pool) : (s.updPool f).disown = s.disown := rfl
@[simp] theorem State.updPool_prot (s : State) (f : Pool → Pool) : (s.updPool f).prot = s.prot := rfl
@[simp] theorem State.updPool_cons (s : State) (f : Pool → Pool) : (s.updPool f).cons = s.cons := rfl
@[simp] theorem State.updPool_mgmt (s : State) (f : Pool → Pool) : (s.updPool f).mgmt = s.mgmt := rfl
@[simp] theorem State.updPool_dom (s : State) (f : Pool → Pool) : (s.updPool f).dom = s.dom := rfl
@[simp] theorem State.updPool_obs (s : State) (f : Pool → Pool) : (s.updPool f).obs = s.obs := rfl
@[simp] theorem State.updPool_clk (s : State) (f : Pool → Pool) : (s.updPool f).clk = s.clk := rfl
@[simp] theorem State.updPool_cal (s : State) (f : Pool → Pool) : (s.updPool f).cal = s.cal := rfl
@[simp] theorem State.updPool_led (s : State) (f : Pool → Pool) : (s.updPool f).led = s.led := rfl
@[simp] theorem State.updPool_sec (s : State) (f : Pool → Pool) : (s.updPool f).sec = s.sec := rfl
@[simp] theorem State.updPool_hst (s : State) (f : Pool → Pool) : (s.updPool f).hst = s.hst := rfl

@[simp] theorem State.updHbm_pending (s : State) (f : Hbm → Hbm) : (s.updHbm f).pending = s.pending := rfl
@[simp] theorem State.updHbm_out (s : State) (f : Hbm → Hbm) : (s.updHbm f).out = s.out := rfl
@[simp] theorem State.updHbm_fresh (s : State) (f : Hbm → Hbm) : (s.updHbm f).fresh = s.fresh := rfl
@[simp] theorem State.updHbm_fuses (s : State) (f : Hbm → Hbm) : (s.updHbm f).fuses = s.fuses := rfl
@[simp] theorem State.updHbm_ports (s : State) (f : Hbm → Hbm) : (s.updHbm f).ports = s.ports := rfl
@[simp] theorem State.updHbm_slices (s : State) (f : Hbm → Hbm) : (s.updHbm f).slices = s.slices := rfl
@[simp] theorem State.updHbm_binds (s : State) (f : Hbm → Hbm) : (s.updHbm f).binds = s.binds := rfl
@[simp] theorem State.updHbm_hbm (s : State) (f : Hbm → Hbm) : (s.updHbm f).hbm = f s.hbm := rfl
@[simp] theorem State.updHbm_pool (s : State) (f : Hbm → Hbm) : (s.updHbm f).pool = s.pool := rfl
@[simp] theorem State.updHbm_disown (s : State) (f : Hbm → Hbm) : (s.updHbm f).disown = s.disown := rfl
@[simp] theorem State.updHbm_prot (s : State) (f : Hbm → Hbm) : (s.updHbm f).prot = s.prot := rfl
@[simp] theorem State.updHbm_cons (s : State) (f : Hbm → Hbm) : (s.updHbm f).cons = s.cons := rfl
@[simp] theorem State.updHbm_mgmt (s : State) (f : Hbm → Hbm) : (s.updHbm f).mgmt = s.mgmt := rfl
@[simp] theorem State.updHbm_dom (s : State) (f : Hbm → Hbm) : (s.updHbm f).dom = s.dom := rfl
@[simp] theorem State.updHbm_obs (s : State) (f : Hbm → Hbm) : (s.updHbm f).obs = s.obs := rfl
@[simp] theorem State.updHbm_clk (s : State) (f : Hbm → Hbm) : (s.updHbm f).clk = s.clk := rfl
@[simp] theorem State.updHbm_cal (s : State) (f : Hbm → Hbm) : (s.updHbm f).cal = s.cal := rfl
@[simp] theorem State.updHbm_led (s : State) (f : Hbm → Hbm) : (s.updHbm f).led = s.led := rfl
@[simp] theorem State.updHbm_sec (s : State) (f : Hbm → Hbm) : (s.updHbm f).sec = s.sec := rfl
@[simp] theorem State.updHbm_hst (s : State) (f : Hbm → Hbm) : (s.updHbm f).hst = s.hst := rfl

@[simp] theorem setVector_pending (s : State) (v : Fin 32) (x : Vector32) : (setVector s v x).pending = s.pending := rfl
@[simp] theorem setVector_out (s : State) (v : Fin 32) (x : Vector32) : (setVector s v x).out = s.out := rfl
@[simp] theorem setVector_fresh (s : State) (v : Fin 32) (x : Vector32) : (setVector s v x).fresh = s.fresh := rfl
@[simp] theorem setVector_fuses (s : State) (v : Fin 32) (x : Vector32) : (setVector s v x).fuses = s.fuses := rfl
@[simp] theorem setVector_ports (s : State) (v : Fin 32) (x : Vector32) : (setVector s v x).ports = s.ports := rfl
@[simp] theorem setVector_slices (s : State) (v : Fin 32) (x : Vector32) : (setVector s v x).slices = s.slices := rfl
@[simp] theorem setVector_binds (s : State) (v : Fin 32) (x : Vector32) : (setVector s v x).binds = s.binds := rfl
@[simp] theorem setVector_hbm (s : State) (v : Fin 32) (x : Vector32) : (setVector s v x).hbm = s.hbm := rfl
@[simp] theorem setVector_pool (s : State) (v : Fin 32) (x : Vector32) : (setVector s v x).pool = s.pool := rfl
@[simp] theorem setVector_disown (s : State) (v : Fin 32) (x : Vector32) : (setVector s v x).disown = s.disown := rfl
@[simp] theorem setVector_prot (s : State) (v : Fin 32) (x : Vector32) : (setVector s v x).prot = s.prot := rfl
@[simp] theorem setVector_cons (s : State) (v : Fin 32) (x : Vector32) : (setVector s v x).cons = s.cons := rfl
@[simp] theorem setVector_mgmt (s : State) (v : Fin 32) (x : Vector32) : (setVector s v x).mgmt = s.mgmt := rfl
@[simp] theorem setVector_dom (s : State) (v : Fin 32) (x : Vector32) : (setVector s v x).dom = s.dom := rfl
@[simp] theorem setVector_obs (s : State) (v : Fin 32) (x : Vector32) : (setVector s v x).obs = s.obs := rfl
@[simp] theorem setVector_clk (s : State) (v : Fin 32) (x : Vector32) : (setVector s v x).clk = s.clk := rfl
@[simp] theorem setVector_cal (s : State) (v : Fin 32) (x : Vector32) : (setVector s v x).cal = s.cal := rfl
@[simp] theorem setVector_led (s : State) (v : Fin 32) (x : Vector32) : (setVector s v x).led = s.led := rfl
@[simp] theorem setVector_sec (s : State) (v : Fin 32) (x : Vector32) : (setVector s v x).sec = s.sec := rfl
@[simp] theorem setVector_hst (s : State) (v : Fin 32) (x : Vector32) : (setVector s v x).hst = { s.hst with vectors := s.hst.vectors.set v x } := rfl

@[simp] theorem begin_pending (s : State) : (begin s).pending = s.pending := rfl
@[simp] theorem begin_out (s : State) : (begin s).out = [] := rfl
@[simp] theorem begin_fresh (s : State) : (begin s).fresh = s.fresh := rfl
@[simp] theorem begin_fuses (s : State) : (begin s).fuses = s.fuses := rfl
@[simp] theorem begin_ports (s : State) : (begin s).ports = s.ports := rfl
@[simp] theorem begin_slices (s : State) : (begin s).slices = s.slices := rfl
@[simp] theorem begin_binds (s : State) : (begin s).binds = s.binds := rfl
@[simp] theorem begin_hbm (s : State) : (begin s).hbm = s.hbm := rfl
@[simp] theorem begin_pool (s : State) : (begin s).pool = s.pool := rfl
@[simp] theorem begin_disown (s : State) : (begin s).disown = s.disown := rfl
@[simp] theorem begin_prot (s : State) : (begin s).prot = s.prot := rfl
@[simp] theorem begin_cons (s : State) : (begin s).cons = s.cons := rfl
@[simp] theorem begin_mgmt (s : State) : (begin s).mgmt = s.mgmt := rfl
@[simp] theorem begin_dom (s : State) : (begin s).dom = s.dom := rfl
@[simp] theorem begin_obs (s : State) : (begin s).obs = s.obs := rfl
@[simp] theorem begin_clk (s : State) : (begin s).clk = s.clk := rfl
@[simp] theorem begin_cal (s : State) : (begin s).cal = s.cal := rfl
@[simp] theorem begin_led (s : State) : (begin s).led = s.led := rfl
@[simp] theorem begin_sec (s : State) : (begin s).sec = s.sec := rfl
@[simp] theorem begin_hst (s : State) : (begin s).hst = s.hst := rfl

@[simp] theorem latch_pending (o s : State) : (latch o s).pending = s.pending := rfl
@[simp] theorem latch_out (o s : State) : (latch o s).out = s.out := rfl
@[simp] theorem latch_fresh (o s : State) : (latch o s).fresh = s.fresh := rfl
@[simp] theorem latch_fuses (o s : State) : (latch o s).fuses = s.fuses := rfl
@[simp] theorem latch_ports (o s : State) : (latch o s).ports = s.ports := rfl
@[simp] theorem latch_slices (o s : State) : (latch o s).slices = s.slices := rfl
@[simp] theorem latch_binds (o s : State) : (latch o s).binds = s.binds := rfl
@[simp] theorem latch_hbm (o s : State) : (latch o s).hbm = s.hbm := rfl
@[simp] theorem latch_pool (o s : State) : (latch o s).pool = s.pool := rfl
@[simp] theorem latch_disown (o s : State) : (latch o s).disown = s.disown := rfl
@[simp] theorem latch_prot (o s : State) : (latch o s).prot = s.prot := rfl
@[simp] theorem latch_mgmt (o s : State) : (latch o s).mgmt = s.mgmt := rfl
@[simp] theorem latch_obs (o s : State) : (latch o s).obs = s.obs := rfl
@[simp] theorem latch_clk (o s : State) : (latch o s).clk = s.clk := rfl
@[simp] theorem latch_cal (o s : State) : (latch o s).cal = s.cal := rfl
@[simp] theorem latch_sec (o s : State) : (latch o s).sec = s.sec := rfl
@[simp] theorem latch_hst (o s : State) : (latch o s).hst = s.hst := rfl

@[simp] theorem hold_pending (o s : State) : (hold o s).pending = o.pending := rfl
@[simp] theorem hold_out (o s : State) : (hold o s).out = s.out := rfl
@[simp] theorem hold_fresh (o s : State) : (hold o s).fresh = s.fresh := rfl
@[simp] theorem hold_fuses (o s : State) : (hold o s).fuses = s.fuses := rfl
@[simp] theorem hold_ports (o s : State) : (hold o s).ports = s.ports := rfl
@[simp] theorem hold_slices (o s : State) : (hold o s).slices = s.slices := rfl
@[simp] theorem hold_binds (o s : State) : (hold o s).binds = s.binds := rfl
@[simp] theorem hold_hbm (o s : State) : (hold o s).hbm = s.hbm := rfl
@[simp] theorem hold_pool (o s : State) : (hold o s).pool = s.pool := rfl
@[simp] theorem hold_disown (o s : State) : (hold o s).disown = s.disown := rfl
@[simp] theorem hold_prot (o s : State) : (hold o s).prot = s.prot := rfl
@[simp] theorem hold_dom (o s : State) : (hold o s).dom = s.dom := rfl
@[simp] theorem hold_obs (o s : State) : (hold o s).obs = s.obs := rfl
@[simp] theorem hold_cal (o s : State) : (hold o s).cal = s.cal := rfl
@[simp] theorem hold_sec (o s : State) : (hold o s).sec = s.sec := rfl
@[simp] theorem hold_hst (o s : State) : (hold o s).hst = s.hst := rfl

@[simp] theorem latch_time (o s : State) : (latch o s).dom.time = max o.dom.time s.dom.time := rfl
@[simp] theorem latch_contained (o s : State) : (latch o s).cons.contained = (o.cons.contained || s.cons.contained) := rfl
@[simp] theorem latch_stal (o s : State) : (latch o s).led.stal = keepRising o.led.stal s.led.stal := rfl
@[simp] theorem hold_contained (o s : State) : (hold o s).cons.contained = s.cons.contained := rfl
@[simp] theorem hold_first (o s : State) : (hold o s).cons.first = s.cons.first := rfl
@[simp] theorem hold_later (o s : State) : (hold o s).cons.later = min s.cons.later 255 := rfl
@[simp] theorem hold_forced (o s : State) : (hold o s).clk.forced = min s.clk.forced 65535 := rfl
@[simp] theorem hold_nqLost (o s : State) : (hold o s).mgmt.nqLost = min s.mgmt.nqLost (2 ^ 32 - 1) := rfl
@[simp] theorem hold_ringIgnored (o s : State) : (hold o s).mgmt.pri.ringIgnored = min s.mgmt.pri.ringIgnored 255 := rfl
@[simp] theorem hold_stal (o s : State) : (hold o s).led.stal = keepWritten o.led.stal s.led.stal := rfl
@[simp] theorem State.updPort_port (s : State) (p : Fin 24) (f : Port → Port) : (s.updPort p f).port p = f (s.port p) := by
  simp [State.port, State.updPort]
theorem State.updPort_port_ne (s : State) (p q : Fin 24) (f : Port → Port) (h : p ≠ q) : (s.updPort p f).port q = s.port q := by
  have h' : (p : Nat) ≠ q := fun e => h (Fin.ext e)
  simp [State.port, State.updPort, h']

end Sys2Proof.Machine
end

