-- ==== Sys2Proof/Laws/Run.lean ====
section
/-! SUPPORT. What a command's run leaves, said once: the watermarks move nothing but themselves and the intake, and what holds of every
step changes nothing that the command left in order. -/

namespace Sys2Proof.Machine
open Sys2Proof

/-- R425: an event moves the intake alone. -/
theorem notify_view (s : State) (e : Event) : (notify s e).view = s.view := by
  unfold notify; split <;> rfl

/-- R283: the watermarks move themselves and the intake alone. -/
theorem watch_view (o s : State) : (watch o s).view = s.view := by
  unfold watch
  simp only []
  generalize (List.finRange 49).filter _ = l
  have fires : ∀ (l : List (Fin 49)) (s1 : State), (l.foldl (fun s w => notify s (wmEvent s w)) s1).view = s1.view := by
    intro l
    induction l with
    | nil => intro s1; rfl
    | cons w ws ih => intro s1; simp only [List.foldl_cons]; rw [ih]; exact notify_view _ _
  rw [fires]; simp only [State.view]

/-- Equal views have equal fields outside the mailboxes' and notifications' own. -/
theorem view_fields {s t : State} (h : s.view = t.view) :
    s.pending = t.pending ∧ s.out = t.out ∧ s.fresh = t.fresh ∧ s.fuses = t.fuses ∧ s.ports = t.ports ∧ s.slices = t.slices ∧
    s.binds = t.binds ∧ s.hbm = t.hbm ∧ s.pool = t.pool ∧ s.disown = t.disown ∧ s.prot = t.prot ∧ s.cons = t.cons ∧
    s.dom = t.dom ∧ s.obs = t.obs ∧ s.clk = t.clk ∧ s.cal = t.cal ∧ s.led = t.led ∧ s.sec = t.sec ∧ s.hst = t.hst := by
  simp only [State.view, State.mk.injEq] at h
  simp only [h, and_self]

/-- Equal views have equal mailboxes, configuration and work. -/
theorem view_mgmt {s t : State} (h : s.view = t.view) :
    { s.mgmt with wms := Vector.replicate 49 {}, intake := [], intakeLost := 0, nqLost := 0 } =
    { t.mgmt with wms := Vector.replicate 49 {}, intake := [], intakeLost := 0, nqLost := 0 } := by
  simp only [State.view, State.mk.injEq] at h
  exact h.2.2.2.2.2.2.2.2.2.2.2.2.1

/-- What holds of every step does not depend on the watermarks. -/
theorem kept_view (s : State) {u v : State} (h : u.view = v.view) : (kept s u).view = (kept s v).view := by
  have hf := view_fields h
  have hm := view_mgmt h
  simp only [Mgmt.mk.injEq] at hm
  simp only [kept, hold, latch, State.view, State.mk.injEq, Mgmt.mk.injEq]
  simp only [hf, hm, and_self]

/-- The same of a command that can reset the device. -/
theorem hold_view (s : State) {u v : State} (h : u.view = v.view) : (hold s u).view = (hold s v).view := by
  have hf := view_fields h
  have hm := view_mgmt h
  simp only [Mgmt.mk.injEq] at hm
  simp only [hold, State.view, State.mk.injEq, Mgmt.mk.injEq]
  simp only [hf, hm, and_self]

/-- A command answers a next state, with the queue as it was. -/
theorem runCmd_next (f : State → State) (s : State) : ∃ t, runCmd f s = .next t ∧ t.pending = s.pending := ⟨_, rfl, rfl⟩

/-- A command that can reset the device answers a next state too, with the queue as it was. -/
theorem runReset_next (f : State → State) (s : State) : ∃ t, runReset f s = .next t ∧ t.pending = s.pending := ⟨_, rfl, rfl⟩

/-- A command becomes what its operation makes of the state in which it begins. -/
theorem becomes_run {c : Instr} {f : State → State} {s : State} (h : exec c s = runCmd f s) : Becomes c s (kept s (f (begin s))) :=
  ⟨_, h, kept_view s (watch_view s (f (begin s)))⟩

/-- The same of a command that can reset the device. -/
theorem becomes_reset {c : Instr} {f : State → State} {s : State} (h : exec c s = runReset f s) : Becomes c s (hold s (f (begin s))) :=
  ⟨_, h, hold_view s (watch_view s (f (begin s)))⟩

/-! ## The monotonic counters -/

theorem sameStal_refl (x : Stal) : sameStal x x = true := by simp [sameStal]

theorem sameStal_symm (x y : Stal) : sameStal x y = sameStal y x := by
  simp only [sameStal, Bool.beq_comm (a := x.id), Bool.beq_comm (a := x.index)]

/-- A counter is found under its own name. -/
theorem stal_find {l : List Stal} (h : l.Pairwise (fun a b => sameStal a b = false)) {x : Stal} (hx : x ∈ l) :
    l.find? (sameStal x) = some x := by
  induction l with
  | nil => cases hx
  | cons y ys ih =>
    rw [List.pairwise_cons] at h
    rcases List.mem_cons.mp hx with rfl | hx
    · simp [sameStal_refl]
    · have hy : sameStal x y = false := by rw [sameStal_symm]; exact h.1 x hx
      rw [List.find?_cons_of_neg (by simp [hy])]
      exact ih h.2 hx

/-- Nothing more is added to what every counter is already part of. -/
theorem keep_foldl (new : List Stal) : ∀ acc : List Stal, (∀ n ∈ new, acc.any (sameStal n) = true) →
    new.foldl (fun acc n => if acc.any (sameStal n) then acc else acc ++ [{ n with value := max n.value n.written }]) acc = acc := by
  induction new with
  | nil => intro acc _; rfl
  | cons n ns ih =>
    intro acc h
    simp only [List.foldl_cons, h n List.mem_cons_self, if_true]
    exact ih acc fun m hm => h m (List.mem_cons_of_mem n hm)

theorem map_fixed {l : List Stal} (F : Stal → Stal) (h : ∀ o ∈ l, F o = o) : l.map F = l :=
  (List.map_congr_left (g := id) h).trans (List.map_id l)

theorem keepRising_self {l : List Stal} (h : StalOk l) : keepRising l l = l := by
  have hn : (l.filter fun n => !(l.any fun o => n.id == o.id && n.index == o.index)) = [] := by
    rw [List.filter_eq_nil_iff]
    intro n hn hc
    simp only [Bool.not_eq_true', List.any_eq_false] at hc
    exact hc n hn (by simp)
  unfold keepRising
  rw [hn, List.append_nil]
  refine map_fixed _ fun o ho => ?_
  have hf : (l.find? fun n => n.id == o.id && n.index == o.index) = some o := by
    rw [← stal_find h.1 ho]
    congr 1; funext n; simp only [sameStal, Bool.beq_comm (a := n.id), Bool.beq_comm (a := n.index)]
  rw [hf]; simp

theorem keepWritten_self {l : List Stal} (h : StalOk l) : keepWritten l l = l := by
  unfold keepWritten
  rw [map_fixed (l := l)]
  · exact keep_foldl l l fun n hn => List.any_eq_true.mpr ⟨n, hn, sameStal_refl n⟩
  · intro o ho
    have hw := h.2 o ho
    rw [stal_find h.1 ho]
    cases o with | mk id index value written => ?_
    simp at hw ⊢; omega

/-- R371, R373: a step that leaves the monotonic counters, containment, time and what saturates as they were, or in range, is held
to nothing. -/
theorem kept_same {s u : State} (hi : Sound s) (hp : u.pending = s.pending) (hc : u.cons = s.cons) (ht : u.dom.time = s.dom.time)
    (hl : u.led.stal = s.led.stal) (hk : u.clk.forced = s.clk.forced) (hr : u.mgmt.pri.ringIgnored ≤ 255) :
    (kept s u).view = u.view := by
  obtain ⟨-, -, h3, h4, h5⟩ := hi
  have hcons : u.cons = { u.cons with
      contained := s.cons.contained || u.cons.contained,
      first := if s.cons.contained then s.cons.first else u.cons.first,
      salvage := if s.cons.contained then s.cons.salvage else u.cons.salvage,
      later := min u.cons.later 255 } := by
    rw [hc, Nat.min_eq_left h3]; simp
  have hdom : { u.dom with time := max s.dom.time u.dom.time } = u.dom := by rw [← ht, Nat.max_self]
  have hled : { u.led with stal := keepWritten s.led.stal (keepRising s.led.stal u.led.stal) } = u.led := by
    rw [hl, keepRising_self h5, keepWritten_self h5, ← hl]
  have hclk : { u.clk with forced := min u.clk.forced 65535 } = u.clk := by rw [hk, Nat.min_eq_left h4, ← hk]
  have hpri : { u.mgmt.pri with ringIgnored := min u.mgmt.pri.ringIgnored 255 } = u.mgmt.pri := by rw [Nat.min_eq_left hr]
  simp only [kept, hold, latch, State.view, State.mk.injEq, Mgmt.mk.injEq, true_and, and_true]
  exact ⟨hp.symm, hcons.symm, hpri, hdom, hclk, hled⟩

/-- A command that becomes a state which is held to nothing becomes that state. -/
theorem becomes_same {c : Instr} {f : State → State} {s u : State} (h : exec c s = runCmd f s) (hi : Sound s) (hu : f (begin s) = u)
    (hp : u.pending = s.pending) (hc : u.cons = s.cons) (ht : u.dom.time = s.dom.time) (hl : u.led.stal = s.led.stal)
    (hk : u.clk.forced = s.clk.forced) (hr : u.mgmt.pri.ringIgnored ≤ 255) : Becomes c s u := by
  obtain ⟨t, h1, h2⟩ := becomes_run h
  exact ⟨t, h1, h2.trans (by rw [hu]; exact kept_same hi hp hc ht hl hk hr)⟩

end Sys2Proof.Machine
end

