-- ==== Sys2Proof/Laws/Mailbox.lean ====
section
/-! SUPPORT. A command that is served runs its handler in the state in which its mailbox has taken it; an answer leaves the device as it
was, the mailbox, the vector and the messages sent apart. -/

namespace Sys2Proof.Machine
open Sys2Proof

/-! ## Bytes -/

@[simp] theorem leBytes_length (n x : Nat) : (leBytes n x).length = n := by
  induction n generalizing x with
  | zero => rfl
  | succ n ih => simp [leBytes, ih]

/-- R6: little-endian bytes make the number again. -/
theorem ofLe_leBytes (n x : Nat) : ofLe (leBytes n x) = x % 256 ^ n := by
  induction n generalizing x with
  | zero => simp [leBytes, ofLe, Nat.mod_one]
  | succ n ih =>
    simp only [leBytes, ofLe, ih, BitVec.toNat_ofNat, Nat.shiftRight_eq_div_pow]
    have h : 256 ^ (n + 1) = 256 * 256 ^ n := by rw [Nat.pow_succ, Nat.mul_comm]
    rw [h, Nat.mod_mul]

/-- The first n bytes of a list that begins with the bytes of a number. -/
theorem leAt_here (n x : Nat) (bs : List Byte) : leAt (leBytes n x ++ bs) 0 n = x % 256 ^ n := by
  simp only [leAt, List.drop_zero]
  rw [List.take_append_of_le_length (by simp), List.take_of_length_le (by simp), ofLe_leBytes]

/-- The bytes of a number alone. -/
theorem leAt_alone (n x : Nat) : leAt (leBytes n x) 0 n = x % 256 ^ n := by
  have h := leAt_here n x []
  simpa using h

/-- Bytes beyond the first part of a list. -/
theorem leAt_skip (as bs : List Byte) (off n : Nat) (h : as.length ≤ off) : leAt (as ++ bs) off n = leAt bs (off - as.length) n := by
  simp only [leAt, List.drop_append, List.drop_eq_nil_of_le h, List.nil_append]

/-- Bytes within the first part of a list. -/
theorem leAt_within (as bs : List Byte) (off n : Nat) (h : off + n ≤ as.length) : leAt (as ++ bs) off n = leAt as off n := by
  simp only [leAt]
  rw [List.drop_append_of_le_length (by omega), List.take_append_of_le_length (by simp; omega)]

@[simp] theorem padTo_length (n : Nat) (bs : List Byte) : (padTo n bs).length = n := by
  simp [padTo]; omega

theorem padTo_self (bs : List Byte) : padTo bs.length bs = bs := by simp [padTo]

/-! ## Answers -/

/-- R206, R215: fragments sent on the ring leave the device as it was. -/
theorem ringSends_rest (l : List (List Byte)) (typ dst : Nat) (s : State) :
    ∃ o, l.foldl (fun s f => ringSend s typ dst f) s = { s with out := s.out ++ o } := by
  induction l generalizing s with
  | nil => exact ⟨[], by simp⟩
  | cons f fs ih =>
    obtain ⟨o, ho⟩ := ih (ringSend s typ dst f)
    refine ⟨[.ring typ dst (s.dom.index.getD 0xFE) 0 f (crc32 (frameBytes typ dst (s.dom.index.getD 0xFE) 0 f))] ++ o, ?_⟩
    rw [List.foldl_cons, ho]
    simp only [ringSend, State.emit, List.append_assoc]

/-- R403: a vector raised leaves the device as it was, the vector and what is sent apart. -/
theorem raiseVector_rest (s : State) (v : Fin 32) : ∃ o h, raiseVector s v = { s with out := o, hst := h } := by
  simp only [raiseVector, setVector, State.emit]
  split
  · exact ⟨_, _, rfl⟩
  · split
    · exact ⟨_, _, rfl⟩
    · exact ⟨_, _, rfl⟩

/-- R272: an answer leaves the device as it was: a mailbox, a vector and what is sent apart. -/
theorem respond_rest (s : State) (via : Via) (op cookie relayId responder : Nat) (r : Reply) : ∃ o h p q,
    respond s via op cookie relayId responder r = { s with out := o, hst := h, mgmt := { s.mgmt with pri := p, sec := q } } ∧
    p.ringIgnored = s.mgmt.pri.ringIgnored := by
  cases via with
  | primary =>
    obtain ⟨o, h, e⟩ := raiseVector_rest { s with mgmt := { s.mgmt with pri := { s.mgmt.pri with
      state := .done, lastStatus := r.status, resp := respBytes op cookie responder r } } } 0
    exact ⟨o, h, _, s.mgmt.sec, e, rfl⟩
  | secondary => exact ⟨_, s.hst, s.mgmt.pri, _, rfl, rfl⟩
  | relay =>
    obtain ⟨o, e⟩ := ringSends_rest (relayFragments relayId (respBytes op cookie responder r)) 0x11 0 s
    exact ⟨_, s.hst, s.mgmt.pri, s.mgmt.sec, e, rfl⟩

/-- A taken command leaves the device as it was, its mailbox apart. -/
theorem taken_rest (op : Nat) (a : CmdArea) (s : State) : ∃ p q, taken op a s = { s with mgmt := { s.mgmt with pri := p, sec := q } } ∧
    p.ringIgnored = s.mgmt.pri.ringIgnored := by
  unfold taken
  split
  · exact ⟨_, s.mgmt.sec, rfl, rfl⟩
  · exact ⟨s.mgmt.pri, _, rfl, rfl⟩
  · exact ⟨s.mgmt.pri, s.mgmt.sec, rfl, rfl⟩

/-- What a command reads of a state is not its mailbox's. -/
theorem taken_own (op : Nat) (a : CmdArea) (s : State) : ownIndex (taken op a s) = ownIndex s := by
  obtain ⟨p, q, e, -⟩ := taken_rest op a s
  rw [e]; rfl

/-! ## Service -/

theorem ctxOf_made {op : Nat} {a : CmdArea} (hop : op < 2 ^ 16) (h : Made a) :
    ctxOf op a 0 = { op := op, cookie := a.cookie, via := a.via, relayId := 0, payload := a.payload } := by
  obtain ⟨-, h2, h3, h4⟩ := h
  have hl : a.payloadLen % 2 ^ 16 = a.payload.length := by omega
  simp only [ctxOf, Nat.mod_eq_of_lt hop, Nat.mod_eq_of_lt h4, hl, padTo_self]

theorem ctx_reply {op : Nat} {a : CmdArea} (hop : op < 2 ^ 16) (h : Made a) (r : Reply) (s : State) :
    (ctxOf op a 0).reply r s = reply op a r s := by
  rw [ctxOf_made hop h]; rfl

theorem ctx_ok {op : Nat} {a : CmdArea} (hop : op < 2 ^ 16) (h : Made a) (bs : List Byte) (s : State) :
    (ctxOf op a 0).ok bs s = reply op a (replyOk bs) s := ctx_reply hop h _ s

theorem ctx_work {op : Nat} {a : CmdArea} (hop : op < 2 ^ 16) (h : Made a) (s : State) (x y z w : Nat) (es : List (Nat × Nat)) :
    (ctxOf op a 0).work s x y z w es = working op a x y z w es s := by
  rw [ctxOf_made hop h]; rfl

theorem ctx_arg {op : Nat} {a : CmdArea} (hop : op < 2 ^ 16) (h : Made a) (off n : Nat) :
    (ctxOf op a 0).arg off n = leAt a.payload (off - 16) n := by
  rw [ctxOf_made hop h]; rfl

theorem made_ok {a : CmdArea} (h : Made a) (ht : a.target < 64 ∨ a.target = 0xFF) : areaOk a = true := by
  obtain ⟨h1, h2, h3, -⟩ := h
  simp only [areaOk, h1, Bool.and_eq_true, Bool.not_eq_true', decide_eq_true_eq, decide_eq_false_iff_not]
  refine ⟨⟨by simp, ?_⟩, by omega⟩
  omega

/-- R273, R276, R426: a command that is served runs its handler in the state in which it has been taken. -/
theorem deliver_served {op : Nat} {a : CmdArea} {s : State} (h : Handler) (hop : op < 2 ^ 16) (hs : Served op a s) :
    deliver op h a s = h (ctxOf op a 0) (taken op a s) := by
  obtain ⟨hm, hr, hrun, hc, -⟩ := hs
  have hserve : ∀ u : State, u.cons.contained = false → u.mgmt.state = .running → serve (ctxOf op a 0) h u = h (ctxOf op a 0) u := by
    intro u h1 h2
    simp [serve, h1, h2]
  have hctx := ctxOf_made hop hm
  unfold deliver deliverTo
  simp only []
  cases hv : a.via with
  | primary =>
    rw [Reaches, hv] at hr
    obtain ⟨h1, h2, h3, h4⟩ := hr
    have ho : areaOk a = true := made_ok hm (by omega)
    have hp : primaryOnly (ctxOf op a 0) (a.target % 256) = none := by
      unfold primaryOnly; rw [if_pos (by omega)]
    have ht : a.target % 256 = 0 ∨ a.target % 256 = 0xFF := by omega
    have hvia : (ctxOf op a 0).via = .primary := by rw [hctx]; exact hv
    have hcop : (ctxOf op a 0).op = op := by rw [hctx]
    have hck : (ctxOf op a 0).cookie = a.cookie := by rw [hctx]
    simp only [h1, h2, Bool.not_true, bne_self_eq_false, Bool.false_eq_true, if_false, takeCommand, hvia]
    have hpr : isPrimary { s with mgmt := { s.mgmt with pri := { s.mgmt.pri with
      state := .taken, cmd := s.mgmt.pri.cmd.writeBytes 0 (areaBytes op a), op := (ctxOf op a 0).op, cookie := (ctxOf op a 0).cookie } } } = true := h3
    rw [if_neg (by simp [hpr])]
    simp only [hardwareAnswer, hrun, accept, ho, Bool.not_true, Bool.false_eq_true, if_false, hvia, hp, ht, if_true, hcop, hck]
    refine (hserve _ (by exact hc) (by first | rfl | exact hrun)).trans ?_
    simp only [taken, hv, hrun]
  | secondary =>
    rw [Reaches, hv] at hr
    obtain ⟨h1, h2, h3, h4⟩ := hr
    have ho : areaOk a = true := made_ok hm (by omega)
    have hvia : (ctxOf op a 0).via = .secondary := by rw [hctx]; exact hv
    have hcop : (ctxOf op a 0).op = op := by rw [hctx]
    have hck : (ctxOf op a 0).cookie = a.cookie := by rw [hctx]
    simp only [h1, h2, Bool.not_true, bne_self_eq_false, Bool.false_eq_true, if_false, takeCommand, hvia, Bool.or_self,
      reduceCtorEq, false_and]
    simp only [hardwareAnswer, hrun, accept, ho, Bool.not_true, Bool.false_eq_true, if_false, hvia, hcop, h3, hck]
    have ht : ¬ (a.target % 256 ≠ 0xFF ∧ a.target % 256 ≠ ownIndex s) := by omega
    refine (if_neg ht).trans ?_
    refine (hserve _ (by exact hc) (by first | rfl | exact hrun)).trans ?_
    simp only [taken, hv, hrun]
  | relay =>
    rw [Reaches, hv] at hr
    obtain ⟨h1, h4⟩ := hr
    have ho : areaOk a = true := made_ok hm (by omega)
    have hvia : (ctxOf op a 0).via = .relay := by rw [hctx]; exact hv
    simp only [h1, Option.isSome_none, Bool.false_eq_true, if_false, takeCommand, hvia, reduceCtorEq, false_and]
    simp only [hardwareAnswer, hrun, accept, ho, Bool.not_true, Bool.false_eq_true, if_false, hvia]
    refine (hserve _ (by exact hc) (by first | rfl | exact hrun)).trans ?_
    simp only [taken, hv]

/-- Serving does not depend on what an earlier step sent. -/
theorem served_begin {op : Nat} {a : CmdArea} {s : State} (h : Served op a s) : Served op a (begin s) := h

/-- A command whose handler, in the state in which it has been taken, leaves containment, time, the monotonic counters and what
saturates as they were becomes what its handler leaves. -/
theorem becomes_handled {c : Instr} {op : Nat} {h : Handler} {a : CmdArea} {s u : State} (hx : exec c s = runCmd (deliver op h a) s)
    (hop : op < 2 ^ 16) (hi : Sound s) (hs : Served op a s) (hu : h (ctxOf op a 0) (taken op a (begin s)) = u)
    (hp : u.pending = s.pending) (hc : u.cons = s.cons) (ht : u.dom.time = s.dom.time) (hl : u.led.stal = s.led.stal)
    (hk : u.clk.forced = s.clk.forced) (hr : u.mgmt.pri.ringIgnored = s.mgmt.pri.ringIgnored) : Becomes c s u :=
  becomes_same hx hi ((deliver_served h hop (served_begin hs)).trans hu) hp hc ht hl hk (hr ▸ hi.1)

/-- A command that only answers becomes its answer. -/
theorem becomes_answer {c : Instr} {op : Nat} {h : Handler} {a : CmdArea} {s : State} {r : Reply} (hx : exec c s = runCmd (deliver op h a) s)
    (hop : op < 2 ^ 16) (hi : Sound s) (hs : Served op a s)
    (hu : h (ctxOf op a 0) (taken op a (begin s)) = reply op a r (taken op a (begin s))) : Becomes c s (answer op a r (begin s)) := by
  obtain ⟨p, q, e, e'⟩ := taken_rest op a (begin s)
  obtain ⟨o, v, p', q', f, f'⟩ := respond_rest (taken op a (begin s)) a.via op a.cookie 0 (ownIndex (taken op a (begin s))) r
  refine becomes_handled hx hop hi hs hu ?_ ?_ ?_ ?_ ?_ ?_ <;> simp only [answer, reply] <;> rw [f] <;> simp only [f', e, e'] <;> rfl

/-- A command whose handler only answers OK with a payload tells it. -/
theorem tells_ok {c : Instr} {op : Nat} {h : Handler} {a : CmdArea} {s : State} {p : List Byte} {P : List Byte → Prop}
    (hx : exec c s = runCmd (deliver op h a) s) (hop : op < 2 ^ 16) (hi : Sound s) (hs : Served op a s)
    (hu : h (ctxOf op a 0) (taken op a (begin s)) = (ctxOf op a 0).ok p (taken op a (begin s))) (hP : P p) : Tells c op a s P :=
  ⟨p, hP, becomes_answer hx hop hi hs (hu.trans (ctx_ok hop hs.1 p _))⟩

/-- R272: a request whose one span begins at byte 16, long enough and with good fields, is accepted. -/
theorem request_span (c : CmdCtx) (hi : Nat) (f : State → State) (s : State) (h : hi + 1 - 16 ≤ c.payload.length) :
    c.request [(16, hi)] true f s = f s := by
  have hn : neededLen [(16, hi)] = hi + 1 - 16 := by simp [neededLen]
  have hz : unnamedZero [(16, hi)] c.payload = true := by
    simp only [unnamedZero, hn, List.all_eq_true, List.mem_range]
    intro i hlt
    have hb : namedByte [(16, hi)] (16 + i) = true := by simp [namedByte]; omega
    simp [hb]
  unfold CmdCtx.request
  rw [hn, hz]
  simp only [Bool.not_true, Bool.or_false, decide_eq_true_eq]
  exact if_neg (by omega)

/-- The same where the fields' checks are a condition. -/
theorem request_ok (c : CmdCtx) (hi : Nat) {ok : Bool} (f : State → State) (s : State) (h : hi + 1 - 16 ≤ c.payload.length) (ho : ok = true) :
    c.request [(16, hi)] ok f s = f s := by rw [ho]; exact request_span c hi f s h

theorem ctx_payload {op : Nat} {a : CmdArea} (hop : op < 2 ^ 16) (h : Made a) : (ctxOf op a 0).payload = a.payload := by rw [ctxOf_made hop h]

theorem ctx_via {op : Nat} {a : CmdArea} (hop : op < 2 ^ 16) (h : Made a) : (ctxOf op a 0).via = a.via := by rw [ctxOf_made hop h]

/-- What the answer to a handled command leaves as it was. -/
theorem becomes_reply {c : Instr} {op : Nat} {h : Handler} {a : CmdArea} {s v : State} {r : Reply} (hx : exec c s = runCmd (deliver op h a) s)
    (hop : op < 2 ^ 16) (hi : Sound s) (hs : Served op a s) (hu : h (ctxOf op a 0) (taken op a (begin s)) = (ctxOf op a 0).reply r v)
    (hp : v.pending = s.pending) (hc : v.cons = s.cons) (ht : v.dom.time = s.dom.time) (hl : v.led.stal = s.led.stal)
    (hk : v.clk.forced = s.clk.forced) (hr : v.mgmt.pri.ringIgnored = s.mgmt.pri.ringIgnored) : Becomes c s (reply op a r v) := by
  obtain ⟨o, w, p', q', f, f'⟩ := respond_rest v a.via op a.cookie 0 (ownIndex v) r
  refine becomes_handled hx hop hi hs (hu.trans (ctx_reply hop hs.1 r v)) ?_ ?_ ?_ ?_ ?_ ?_ <;> simp only [reply] <;> rw [f] <;> first | assumption | exact f'.trans hr

/-- A served command becomes what its handler leaves, held to what holds of every step. -/
theorem becomes_kept {c : Instr} {op : Nat} {h : Handler} {a : CmdArea} {s u : State} (hx : exec c s = runCmd (deliver op h a) s)
    (hop : op < 2 ^ 16) (hs : Served op a s) (hu : h (ctxOf op a 0) (taken op a (begin s)) = u) : Becomes c s (kept s u) := by
  have := becomes_run hx
  rwa [deliver_served h hop (served_begin hs), hu] at this

end Sys2Proof.Machine
end

