-- ==== Sys2Proof/Laws/Memory.lean ====
section
/-! SUPPORT. The byte memories (HBM, the mailboxes' buffers): every operation keeps the canonical form, a byte written is read back, and
no other byte moves. -/

namespace Sys2Proof

/-- What the canonical form says of a cell and the cells after it. -/
theorem Memory.wf_cons (a : Nat) (b : Byte) (m : Memory) :
    Memory.wf ((a, b) :: m) = true ↔ b ≠ 0 ∧ (∀ c ∈ m.head?, a < c.1) ∧ m.wf = true := by
  cases m with
  | nil => simp [Memory.wf]
  | cons c m => obtain ⟨a', b'⟩ := c; simp [Memory.wf, and_assoc]

/-- The first cell after a write is the one written or the first there was. -/
theorem Memory.write_head (m : Memory) (a : Nat) (b : Byte) (hm : m.wf = true) (n : Nat) (hn : n < a) (h : ∀ c ∈ m.head?, n < c.1) :
    ∀ c ∈ (m.write a b).head?, n < c.1 := by
  cases m with
  | nil => unfold Memory.write; split <;> simp_all
  | cons c m =>
    obtain ⟨a', b'⟩ := c
    simp only [List.head?_cons, Option.mem_def, Option.some.injEq, forall_eq'] at h
    unfold Memory.write
    split
    · split <;> simp_all
    · split
      · split
        · rename_i h1 h2 _
          subst h2
          intro c hc
          exact Nat.lt_trans h (((Memory.wf_cons a b' m).mp hm).2.1 c hc)
        · simp_all
      · simpa using h

/-- A write keeps the canonical form. -/
theorem Memory.write_wf (m : Memory) (a : Nat) (b : Byte) (hm : m.wf = true) : (m.write a b).wf = true := by
  induction m with
  | nil => unfold Memory.write; split <;> simp_all [Memory.wf]
  | cons c m ih =>
    obtain ⟨a', b'⟩ := c
    have hc := (Memory.wf_cons a' b' m).mp hm
    unfold Memory.write
    split
    · split
      · exact hm
      · exact (Memory.wf_cons a b _).mpr ⟨by assumption, by simpa, hm⟩
    · split
      · split
        · exact hc.2.2
        · rename_i h2 _
          subst h2
          exact (Memory.wf_cons a b m).mpr ⟨by assumption, hc.2.1, hc.2.2⟩
      · exact (Memory.wf_cons a' b' _).mpr ⟨hc.1, Memory.write_head m a b hc.2.2 a' (by omega) hc.2.1, ih hc.2.2⟩

/-- Successive writes keep the canonical form. -/
theorem Memory.writeBytes_wf (bs : List Byte) (m : Memory) (a : Nat) (hm : m.wf = true) : (m.writeBytes a bs).wf = true := by
  induction bs generalizing m a with
  | nil => exact hm
  | cons b bs ih => exact ih _ _ (Memory.write_wf m a b hm)

/-- A line written keeps the canonical form. -/
theorem Memory.writeLine_wf (m : Memory) (a : Nat) (l : Line) (hm : m.wf = true) : (m.writeLine a l).wf = true :=
  Memory.writeBytes_wf _ m a hm

/-- Below its first cell a memory reads as nothing written. -/
theorem Memory.read_below (m : Memory) (a : Nat) (hm : m.wf = true) (h : ∀ c ∈ m.head?, a < c.1) : m.read a = 0 := by
  induction m with
  | nil => rfl
  | cons c m ih =>
    obtain ⟨a', b'⟩ := c
    have hc := (Memory.wf_cons a' b' m).mp hm
    simp only [List.head?_cons, Option.mem_def, Option.some.injEq, forall_eq'] at h
    unfold Memory.read
    rw [if_neg (by omega)]
    exact ih hc.2.2 fun c hm => Nat.lt_trans h (hc.2.1 c hm)

/-- A byte written is read back, and every other byte reads as before. -/
theorem Memory.read_write (m : Memory) (a : Nat) (b : Byte) (hm : m.wf = true) (x : Nat) :
    (m.write a b).read x = if x = a then b else m.read x := by
  induction m with
  | nil => unfold Memory.write; split <;> simp_all [Memory.read]
  | cons c m ih =>
    obtain ⟨a', b'⟩ := c
    have hc := (Memory.wf_cons a' b' m).mp hm
    unfold Memory.write
    split
    · rename_i h1
      split
      · rename_i hb
        split
        · rename_i hx
          rw [hx, hb]
          exact Memory.read_below _ a hm (by simpa using h1)
        · rfl
      · simp [Memory.read]
    · split
      · rename_i h1 h2
        subst h2
        split
        · rename_i hb
          split
          · rename_i hx
            rw [hx, hb]
            exact Memory.read_below m a hc.2.2 hc.2.1
          · rename_i hx
            simp [Memory.read, hx]
        · by_cases hx : x = a <;> simp [Memory.read, hx]
      · rename_i h1 h2
        simp only [Memory.read]
        rw [ih hc.2.2]
        by_cases hx : x = a'
        · have : ¬ x = a := by omega
          simp [hx, show ¬ a' = a by omega]
        · simp [hx]

/-- No byte outside those written moves. -/
theorem Memory.read_writeBytes_outside (bs : List Byte) (m : Memory) (a : Nat) (hm : m.wf = true) (x : Nat)
    (hx : x < a ∨ a + bs.length ≤ x) : (m.writeBytes a bs).read x = m.read x := by
  induction bs generalizing m a with
  | nil => rfl
  | cons b bs ih =>
    simp only [List.length_cons] at hx
    unfold Memory.writeBytes
    rw [ih _ _ (Memory.write_wf m a b hm) (by omega), Memory.read_write m a b hm, if_neg (by omega)]

end Sys2Proof

namespace Sys2Proof.Machine

/-- After reset every memory has its canonical form. -/
theorem reset_memories : State.reset.hbm.mem.wf = true ∧ State.reset.mgmt.pri.cmd.wf = true ∧ State.reset.hst.table.wf = true := by
  refine ⟨?_, ?_, ?_⟩ <;> rfl

end Sys2Proof.Machine
end

