-- ==== Sys2Proof/Laws/Ops.lean ====
section
/-! SUPPORT. What each shared operation can do, said once: where an event, a trace record, an error record or an entry into containment
writes, and that what is configured is read back. -/

namespace Sys2Proof.Machine
open Sys2Proof

/-! ## Configuration -/

theorem find_append_none {α : Type} (p : α → Bool) (l : List α) (x : α) (h : l.find? p = none) :
    (l ++ [x]).find? p = if p x then some x else none := by
  rw [List.find?_append, h]; simp only [Option.none_or, List.find?_cons, List.find?_nil]; split <;> simp_all

/-- R286: a key and index set is read back, a default value too. -/
theorem cfgLookup_put_self (cfg : List CfgEnt) (e : CfgEnt) : cfgLookup (cfgPut cfg e) e.key e.index = e.value := by
  have hr : (cfg.filter fun x => !(x.key == e.key && x.index == e.index)).find? (fun x => x.key == e.key && x.index == e.index) = none := by
    rw [List.find?_eq_none]
    intro x hx
    have h := (List.mem_filter.mp hx).2
    simp only [Bool.not_eq_true'] at h
    rw [h]; decide
  simp only [cfgPut]
  split
  · rename_i hd
    simp only [cfgLookup, hr, hd]
  · simp only [cfgLookup, find_append_none _ _ _ hr, beq_self_eq_true, Bool.and_self, if_true]

/-- R286: setting a key and index moves no other. -/
theorem cfgLookup_put_other (cfg : List CfgEnt) (e : CfgEnt) (key index : Nat) (h : ¬ (key = e.key ∧ index = e.index)) :
    cfgLookup (cfgPut cfg e) key index = cfgLookup cfg key index := by
  have hne : ((e.key == key && e.index == index) : Bool) = false := by
    rw [Bool.eq_false_iff]; intro hc; simp at hc; exact h ⟨hc.1.symm, hc.2.symm⟩
  have hf : ∀ l : List CfgEnt, (l.filter fun x => !(x.key == e.key && x.index == e.index)).find? (fun x => x.key == key && x.index == index) =
      l.find? (fun x => x.key == key && x.index == index) := by
    intro l
    induction l with
    | nil => rfl
    | cons x xs ih =>
      by_cases hx : (x.key == e.key && x.index == e.index) = true
      · have hk : ((x.key == key && x.index == index) : Bool) = false := by
          simp only [Bool.and_eq_true, beq_iff_eq] at hx
          rw [hx.1, hx.2]; exact hne
        rw [List.filter_cons_of_neg (by simp [hx]), List.find?_cons_of_neg (by simp [hk])]; exact ih
      · rw [List.filter_cons_of_pos (by simp [hx]), List.find?_cons, List.find?_cons, ih]
  simp only [cfgPut]
  split
  · simp only [cfgLookup, hf]
  · simp only [cfgLookup, List.find?_append, hf, List.find?_cons, hne, List.find?_nil, Option.or_none]

/-! ## Counters, trace and records -/

/-- R425: an event moves the intake and its counts alone. -/
theorem notify_rest (s : State) (e : Event) : ∃ i l n, notify s e = { s with mgmt := { s.mgmt with intake := i, intakeLost := l, nqLost := n } } := by
  unfold notify
  split
  · exact ⟨_, _, _, rfl⟩
  · exact ⟨s.mgmt.intake, _, _, rfl⟩

/-- R319: counting moves what is observed alone. -/
theorem countEv_rest (s : State) (code unit : Nat) (q : Occur) (n : Nat) : ∃ o, countEv s code unit q n = { s with obs := o } := ⟨_, rfl⟩

/-- R334: a trace record moves what is observed alone. -/
theorem tracePut_rest (s : State) (rec : List (BitVec 64)) (stall : Bool) : ∃ o, tracePut s rec stall = { s with obs := o } := by
  unfold tracePut traceDrop
  simp only []
  split
  · exact countEv_rest _ _ _ _ _
  · split
    · exact ⟨_, rfl⟩
    · exact countEv_rest _ _ _ _ _

/-- Table OBS-7: an EVENT record moves what is observed alone. -/
theorem traceEvent_rest (s : State) (seq cls sev kind src : Nat) : ∃ o, traceEvent s seq cls sev kind src = { s with obs := o } := by
  unfold traceEvent
  split
  · exact tracePut_rest _ _ _
  · exact ⟨s.obs, rfl⟩

/-- R249: a new record written to the log moves the log, what is observed, and the intake. -/
theorem logNew_rest (s : State) (r : LogRec) (full : Bool) (e : Event) : ∃ log n o i l q,
    (let s1 := { s with prot := { s.prot with log := (r :: s.prot.log).take 65536, nextSeq := s.prot.nextSeq + 1 } }
     let s2 := if full then countEv s1 0x040A 0 else s1
     let s3 := if decide (2 ≤ r.severity) then traceEvent s2 r.seq r.cls r.severity r.srcKind r.src else s2
     if recNotified r && !(spindleAway s3) then notify s3 e else s3) =
    { s with
      prot := { s.prot with log := log, nextSeq := n }, obs := o,
      mgmt := { s.mgmt with intake := i, intakeLost := l, nqLost := q } } := by
  simp only []
  generalize hs1 : ({ s with prot := { s.prot with log := (r :: s.prot.log).take 65536, nextSeq := s.prot.nextSeq + 1 } } : State) = s1
  obtain ⟨o2, e2⟩ : ∃ o, (if full then countEv s1 0x040A 0 else s1) = { s1 with obs := o } := by
    split
    · exact countEv_rest _ _ _ _ _
    · exact ⟨s1.obs, rfl⟩
  rw [e2]
  obtain ⟨o3, e3⟩ : ∃ o, (if decide (2 ≤ r.severity) then traceEvent { s1 with obs := o2 } r.seq r.cls r.severity r.srcKind r.src
      else { s1 with obs := o2 }) = { s1 with obs := o } := by
    split
    · obtain ⟨o, h⟩ := traceEvent_rest { s1 with obs := o2 } r.seq r.cls r.severity r.srcKind r.src
      exact ⟨o, h⟩
    · exact ⟨o2, rfl⟩
  rw [e3]
  subst hs1
  split
  · obtain ⟨i, l, q, h⟩ := notify_rest { s with
      prot := { s.prot with log := (r :: s.prot.log).take 65536, nextSeq := s.prot.nextSeq + 1 }, obs := o3 } e
    exact ⟨_, _, o3, i, l, q, h⟩
  · exact ⟨_, _, o3, s.mgmt.intake, s.mgmt.intakeLost, s.mgmt.nqLost, rfl⟩

/-- R249: an error record writes the log, what is observed, and the intake; nothing else moves. -/
theorem logError_rest (s : State) (r : LogRec) : ∃ log n o i l q,
    logError s r = { s with
      prot := { s.prot with log := log, nextSeq := n }, obs := o,
      mgmt := { s.mgmt with intake := i, intakeLost := l, nqLost := q } } := by
  simp only [logError]
  split
  · exact ⟨_, _, s.obs, s.mgmt.intake, s.mgmt.intakeLost, s.mgmt.nqLost, rfl⟩
  · exact logNew_rest s _ _ _

/-- R425: a frame sent on the ring leaves the device as it was. -/
theorem ringSend_rest (s : State) (typ dst : Nat) (payload : List Byte) : ∃ o, ringSend s typ dst payload = { s with out := s.out ++ [o] } := ⟨_, rfl⟩

/-! ## Containment -/

/-- R265, R269: while containment holds a further fault is recorded and counted, and nothing that was latched moves. -/
theorem contain_again (s : State) (code : Nat) (h : s.cons.contained = true) :
    (contain s code).cons = { s.cons with later := min (s.cons.later + 1) 255 } := by
  have hl : ∀ (u : State) (r : LogRec), (logError u r).cons = u.cons := fun u r => by
    obtain ⟨log, n, o, i, l, q, e⟩ := logError_rest u r
    rw [e]
  unfold contain
  simp only [if_pos h, hl]

/-! ## Start-up -/

/-- R355: a step that ends has ended. -/
theorem stepEnd_mem (s : State) (n : Nat) : n ∈ (stepEnd s n).clk.stepDone := by
  simp only [stepEnd]
  split
  · rename_i h; simpa using h
  · simp

/-- R355: no step that has ended is undone by another's end. -/
theorem stepEnd_keeps (s : State) (n m : Nat) (h : m ∈ s.clk.stepDone) : m ∈ (stepEnd s n).clk.stepDone := by
  simp only [stepEnd]
  split
  · exact h
  · simp [h]

/-! ## Monotonic counters -/

theorem find_upsert_self (id index : Nat) (x : Stal) (hx : x.id = id ∧ x.index = index) (l : List Stal) :
    (upsert (fun y => y.id == id && y.index == index) x l).find? (fun y => y.id == id && y.index == index) = some x := by
  induction l with
  | nil => simp [upsert, hx]
  | cons y ys ih =>
    unfold upsert
    split
    · simp [hx]
    · rename_i h; rw [List.find?_cons_of_neg (by simpa using h)]; exact ih

/-- R373: a counter raised is at least what it was raised to, and has not fallen. -/
theorem stalGet_raise (s : State) (id index v : Nat) : stalGet (stalRaise s id index v) id index = max (stalGet s id index) v := by
  unfold stalGet stalRaise
  simp only []
  cases hf : s.led.stal.find? fun x => x.id == id && x.index == index with
  | none =>
    simp only []
    rw [find_upsert_self id index _ (by simp)]
  | some x =>
    have hx := List.find?_some hf
    simp only [Bool.and_eq_true, beq_iff_eq] at hx
    simp only []
    rw [find_upsert_self id index _ (by simpa using hx)]

end Sys2Proof.Machine
end

