-- ==== Sys2Proof/WellFormed.lean ====
section
/-! DEFINITION. Well-formed commands: every operand lies in the field, or is as long as the unit, that the spec gives it. A meaning is
total: it takes an ill-formed command too, as the truncation of its operands or as something no partner sends. -/

namespace Sys2Proof

/-- A number that a field of n bits holds. -/
def fits (n x : Nat) : Bool := decide (x < 2 ^ n)

/-- Table MSG-2: the fields of a header. -/
def Hdr.wf (h : Hdr) : Bool :=
  fits 8 h.src && fits 8 h.dest && fits 12 h.tag && fits 46 h.laddr && fits 8 h.aop && fits 8 h.size && fits 32 h.ts

/-- A message of an agent. -/
def MsgIn.wf : MsgIn → Bool
  | .arrive _ h _ _ _ => h.wf
  | .queued _ _ _ => true

/-- Table MBX-1: a command area; PAYLOAD_LEN says how long the payload is. -/
def CmdArea.wf (a : CmdArea) : Bool :=
  a.via != .relay && fits 8 a.target && fits 56 a.resv && fits 16 a.payloadLen && fits 32 a.cookie &&
  a.payload.length == min a.payloadLen 4080

/-- Table DOM-2: a ring frame. -/
def RingFrame.wf (f : RingFrame) : Bool :=
  fits 8 f.dst && fits 8 f.src && fits 8 f.hops && decide (f.payload.length ≤ 240) && (f.crc.getD 0 < 2 ^ 32)

/-- R227: symbols of a codeword of 72, each named once. -/
def HbmErr.wf (e : HbmErr) : Bool := e.flips.all (fun x => decide (x.1 < 72)) && decide ((e.flips.map (·.1)).eraseDups.length = e.flips.length)

/-- Table MSG-12: a memory header. -/
def MemIn.wf (m : MemIn) : Bool := fits 12 m.tag && fits 46 m.maddr

/-- R196: a CXL.mem message, of a line. -/
def CxlMsg.wf (m : CxlMsg) : Bool :=
  fits 52 m.addr && m.addr % 64 == 0 && fits 16 m.tag && fits 2 m.metaField && fits 2 m.metaValue && fits 3 m.snpType

/-- R239: a triplicated word and its three copies. -/
def TmrUpset.wf (u : TmrUpset) : Bool := decide (u.word ≤ 4) && fits 9 u.index

/-- R246: a patrol read. -/
def PatrolTarget.wf : PatrolTarget → Bool
  | .hbm => true
  | .backing _ => true

/-- R30: a training set of 32 bytes. -/
def tsWf (ts : List Byte) : Bool := ts.length == 32

/-- R37: a slot of 18 bytes. -/
def slotWf (slot : List Byte) : Bool := slot.length == 18

/-- R36: a flit of one of the three sizes. -/
def flitWf (bs : List Byte) : Bool := [80, 128, 256].contains bs.length

/-- A command is well-formed. -/
def WellFormed : Instr → Bool
  | .identify a | .getStatus a | .cfgBegin a | .cfgSet a | .cfgGet a | .cfgCommit a | .cfgRollback a | .portStatus a | .portMaint a
  | .portCalibrate a | .portReset a | .partStatus a | .poolStatus a | .discardRange a | .poolErase a | .pageCopy a | .cacheDisable a
  | .cacheEnable a | .cacheFlush a | .persistFlush a | .cacheStatus a | .agentStatus a | .agentDisown a | .scrubRange a | .scrubStatus a
  | .retire a | .logRead a | .ctrProgram a | .ctrWrite a | .ctrFreeze a | .ctrRead a | .traceControl a | .slotRead a | .histRead a
  | .clkGate a | .clkStatus a | .selftest a | .ledgerRead a | .calendarSet a | .fwStage a | .fwActivate a | .fwActivateLive a
  | .domainForm a | .domainStatus a => a.wf
  | .badOpcode op a => fits 16 op && a.wf
  | .getEventRecords _ bs | .clearEventRecords _ bs | .getEventInterruptPolicy _ bs | .setEventInterruptPolicy _ bs | .getFwInfo _ bs
  | .getTimestamp _ bs | .setTimestamp _ bs | .getSupportedLogs _ bs | .getLog _ bs | .identifyMemoryDevice _ bs
  | .getPartitionInfo _ bs | .getHealthInfo _ bs => decide (bs.length ≤ 2048)
  | .cxlUnsupportedOpcode _ op bs => fits 16 op && decide (bs.length ≤ 2048)
  | .getVersion i | .getCapabilities i | .getDigests i => fits 4 i
  | .negotiateAlgorithms i _ => fits 4 i
  | .getCertificate i slot off len => fits 4 i && fits 8 slot && fits 16 off && fits 16 len
  | .challenge i slot nonce => fits 4 i && fits 8 slot && fits 256 nonce
  | .getMeasurements i index _ nonce => fits 4 i && fits 8 index && fits 256 nonce
  | .keyExchange i slot _ => fits 4 i && fits 8 slot
  | .finish i session | .endSession i session => fits 4 i && fits 32 session
  | .spdmUnsupportedRequest i code => fits 4 i && fits 8 code
  | .keyProg session _ _ _ key iv => fits 32 session && fits 256 key && fits 96 iv
  | .keyGo session _ _ _ | .keyQuery session _ | .keyErase session _ => fits 32 session
  | .setEndpointId eid => fits 8 eid
  | .errorLogWindowRead off width _ => fits 22 off && [4, 8].contains width
  | .spindleRestart v => fits 32 v
  | .registerWrite off width v => fits 16 off && [1, 2, 4, 8].contains width && fits (8 * width) v
  | .clockSwitch d | .switchForced d => decide (d < 8)
  | .gateStop level index sub | .gateWake level index sub => decide (level ≤ 4) && decide (index < 24) && decide (sub < 4)
  | .checkerSelftestDone failed => fits 32 failed
  | .form f | .formDone f | .timeSync f | .stateFrame f | .faultFrame f | .relayCmd f | .relayRsp f | .relayNote f | .commitPrepare f
  | .commitVote f | .commitDecide f | .commitAck f => f.wf
  | .tsDisc _ _ ts | .tsCfg _ _ ts | .tsEq _ _ ts | .tsReady _ _ ts | .tsRetrain _ _ ts => tsWf ts
  | .flitReceived _ bs => flitWf bs
  | .creditInit _ slot | .creditReturn _ slot | .creditAudit _ slot | .bindReq _ slot | .modDesc _ slot | .mac _ slot => slotWf slot
  | .rdShared m | .rdOwn m | .rdOnce m | .upgrade m | .flushLine m | .wrFull m | .wrPart m | .atomic m | .wbDirty m | .evictClean m
  | .rspI m | .rspS m | .rspWbPending m | .rspIData m | .rspSData m => m.wf
  | .cxlMemRd _ m | .cxlMemRdData _ m | .cxlMemSpecRd _ m | .cxlMemInv _ m | .cxlMemClnEvct _ m | .cxlMemWr _ m | .cxlMemWrPtl _ m
  | .cxlBiConflict _ m | .cxlBiRsp _ m => m.wf
  | .hdmDecoderCommit _ _ base size _ skip => fits 52 base && fits 53 size && fits 52 skip
  | .expanderEnumeration _ d => fits 53 d.capacity && fits 16 d.maker && fits 16 d.product && (d.rate == 32 || d.rate == 64) && [4, 2, 1].contains d.width
  | .expanderEventPoll _ rs => rs.all fun r => decide (r.1 ≤ 1)
  | .memRdData _ m => m.wf
  | .memWrAck _ tag ack => fits 12 tag && fits 46 ack.maddr
  | .hbmReturn _ _ m => m.err.wf
  | .storeSetReturn _ set m =>
    decide (set < 2 ^ 21) && m.errs.all (fun x => x.2.wf) && decide ((m.errs.map (·.1)).eraseDups.length = m.errs.length)
  | .hbmWriteComplete _ (.store set _) => decide (set < 2 ^ 21)
  | .hbmWriteComplete _ (.tags ls) => decide (ls < 122880)
  | .tagSetReturn _ ls errs => decide (ls < 122880) && errs.all (fun x => x.2.wf) && decide ((errs.map (·.1)).eraseDups.length = errs.length)
  | .waitingRequestOpen _ line => fits 46 line.laddr
  | .snoopTimeout _ laddr agent => fits 46 laddr && decide (agent < 64)
  | .recoveryRecall _ set laddr => decide (set < 2 ^ 21) && fits 46 laddr
  | .evictionCopyRead _ frame => decide (frame < 16 * 122880 * 16)
  | .tripleRebuild _ copy | .extentRetirementCopy _ copy => decide (copy < 3)
  | .tmrSweep us => us.all TmrUpset.wf
  | .patrolRead t e => t.wf && e.wf
  | .scrubStep e _ => e.wf
  | .hbmRefresh _ bank | .rfmpb _ bank => fits 12 bank
  | .dmaHalt ch addr => decide (ch < 8) && fits 40 addr
  | .dataLoadUe addr => fits 40 addr
  | .stalagmiteFlush id index => decide (1 ≤ id ∧ id ≤ 9) && decide (index < 24)
  | .agingSample rs => rs.length == 32
  | .junctionTempRead ts => ts.length == 24
  | .jtagExtest pins => !pins.isEmpty
  | .jtagSamplePreload pins pre => pins.length == pre.length
  | .cxlCreditReturn _ a b c => fits 16 a && fits 16 b && fits 16 c
  | .ideKm _ session stream _ key => fits 32 session && decide (stream ≤ 1) && fits 256 key
  | .smbusArp udid addr => fits 128 udid && fits 7 addr
  | .getEndpointId | .getEndpointUuid | .getMctpVersionSupport | .getMessageTypeSupport | .doeAbort | .mbxDoneClear | .nqDataRead _
  | .nqLostRead | .traceRead _ | .wmCrossedClear _ | .msixUnmask _ | .pciePowerStateChange _ | .pwrgoodAssert | .pwrgoodDeassert
  | .resetNAssert | .resetNDeassert _ | .perstNAssert | .perstNDeassert | .refclkGap | .oscillatorQualified | .monitorWindowEnd _
  | .fallbackCheckWindow _ | .pllLock _ | .pllLossOfLock _ | .pllsLocked | .pcieConfigurationReady | .bootSlotVerify | .ledgerMount
  | .hbmTrained _ | .metadataInitialised | .firmwareReady | .memoryPortSettle _ | .poolRebuild _ | .homeReadyRelease | .thermalRelease
  | .jtagIdcode | .jtagBypass _ | .formTimeout | .timeSyncSend | .stateSend | .ringDown | .domainTimeInvalid | .relayTimeout
  | .prepareFragmentTimeout | .voteTimeout | .decideRepeat | .ackTimeout | .commitWindow | .drainDone | .drainTimeout | .followUpDone
  | .txnIdleTimeout | .commandLimitExpiry _ | .detectPoll _ _ | .discoveryTimeout _ | .configTimeout _ | .eqTimeout _ | .verifyPass _
  | .verifyTimeout _ | .retrainTimeout _ | .lossOfSignal _ | .ackNak _ _ _ | .ackTimer _ | .replayTimeout _ | .creditReturnTimer _
  | .creditAuditDue _ | .calibrationDone _ | .maintEntry _ | .epochAdvance _ | .cxlMemEnable _ _ | .allocate | .allocatorAnswer _
  | .cmpDeparture _ | .memoryPortSchedule _ | .memPortTimeout _ | .bankRelocation | .drainWalkerStep _ | .disableSweepStep _
  | .disownSweepStep _ | .persistSweepStep _ | .discardStep | .pageCopyStep | .audit _ | .censusStep _ | .hbmTempRead _ _
  | .hbmInterfaceCalibration _ _ | .hbmRetrain _ | .fetchTrap _ _ | .spindleResume | .notificationPush | .ledgerCheckpoint
  | .calendarLedgerWrite | .powerOnTimeTick | .traceStallTimeout | .obsSnapshot | .ringIgnored | .cxlReset _ | .obsWord
  | .homeReadyLineChange _ => true

end Sys2Proof
end

