-- ==== Sys2Proof/Tests/Slice0.lean ====
section
/-! SUPPORT. The model's own tests: witnesses that the hypotheses of the statements can be met (`wit_<statement>`), small checks against
values the spec gives (`test_…`), and a smoke test of WellFormed: an ill-formed command for each check, which the check refuses. -/

namespace Sys2Proof.Tests
open Sys2Proof Sys2Proof.Machine

set_option Elab.async false

/-- A command area of the host mailbox. -/
def area (payload : List Byte) : CmdArea := { via := .primary, payloadLen := payload.length, cookie := 7, payload := payload }

/-- A device that serves: start-up has ended, it is the primary, its host is up; ports 0 to 4 are PEER_OLK, MEM_OLK, PEER_CXL3, MEM_CXL
and PEER_CXL2, all up; port 1 has a module of 16 GiB; partition 1 owns the first GiB; agents 5 and 70 are bound on port 0, agent 6 on port 2. -/
def ready : State :=
  let s := State.reset
  { s with
    clk := { s.clk with stepDone := (List.range 15).map (· + 1), step := 15, homeOwn := true, fwReady := true, pllLocked := List.range 32,
                        spindle := .reference, trace := .reference },
    hst := { s.hst with cfgReady := true, msixEnable := true, busMaster := true },
    led := { s.led with mounted := true },
    dom := { s.dom with timeRun := true, timeValid := true, time := 10000 },
    hbm := { s.hbm with initDone := true, stk := s.hbm.stk.map fun x => { x with trained := true } },
    pool := { s.pool with rebuilt := true },
    mgmt := { s.mgmt with
      state := .running, committed := true,
      cfg := [⟨keyPersonality, 0, 1⟩, ⟨keyPersonality, 1, 4⟩, ⟨keyPersonality, 2, 3⟩, ⟨keyPersonality, 3, 5⟩, ⟨keyPersonality, 4, 2⟩,
              ⟨keyBind, 5, 32⟩, ⟨keyBind, 70, 64⟩, ⟨keyBind, 6, 34⟩, ⟨keyWinSize, 1, 1⟩, ⟨keyMembers, 1, 2 ^ 128 - 1⟩, ⟨keyQuota, 1, 100⟩,
              ⟨keyFlags, 1, 1⟩] },
    binds := ((s.binds.set 5 { status := .active }).set 70 { status := .active }).set 6 { status := .active },
    ports := s.ports.mapIdx fun i x =>
      if i < 2 then { x with
        link := { x.link with state := .active, gen := 3, laneMask := 15 },
        mem := if i = 1 then { desc := some { mode := 1, capGiB := 16, ranks := 2, chips := 20 }, taken := true, ek := 8192, metaExt := 1,
                               reserved := some (0, 8192), fresh := [(0, 8191)] } else {} }
      else if i < 5 then { x with cxl := { x.cxl with up := true, memEnable := true, bound := if i = 2 then some 6 else none } } else x }

/-- What the statements ask of a state first. -/
def sane (s : State) : Bool :=
  hostUp s && s.mgmt.pri.state == .idle && isPrimary s && s.mgmt.state == .running && !s.cons.contained &&
  decide (s.mgmt.pri.ringIgnored ≤ 255) && decide (s.mgmt.nqLost ≤ 2 ^ 32 - 1) && decide (s.cons.later ≤ 255) && decide (s.clk.forced ≤ 65535) &&
  s.led.stal.isEmpty

theorem stalOk_nil : StalOk [] := ⟨List.Pairwise.nil, fun _ h => nomatch h⟩

/-- A state whose counters are in range is sound. -/
theorem sound_of {s : State} (h : (decide (s.mgmt.pri.ringIgnored ≤ 255) && decide (s.mgmt.nqLost ≤ 2 ^ 32 - 1) && decide (s.cons.later ≤ 255) &&
    decide (s.clk.forced ≤ 65535) && s.led.stal.isEmpty) = true) : Sound s := by
  simp only [Bool.and_eq_true, decide_eq_true_eq, List.isEmpty_iff] at h
  exact ⟨h.1.1.1.1, h.1.1.1.2, h.1.1.2, h.1.2, h.2 ▸ stalOk_nil⟩

/-- A command of the host mailbox is served in a sane state. -/
theorem served_of {s : State} {op : Nat} {p : List Byte} (h : (sane s && decide (p.length ≤ 4080)) = true) : Served op (area p) s := by
  simp only [sane, Bool.and_eq_true, decide_eq_true_eq, beq_iff_eq, Bool.not_eq_true'] at h
  obtain ⟨⟨⟨⟨⟨⟨⟨⟨⟨⟨h1, h2⟩, h3⟩, h4⟩, h5⟩, h6⟩, -⟩, -⟩, -⟩, -⟩, hp⟩ := h
  exact ⟨⟨rfl, rfl, hp, (by decide : 7 < 2 ^ 32)⟩, ⟨h1, h2, h3, .inr rfl⟩, h4, h5, h6⟩

/-- The ready device is sane and sound. -/
theorem ready_sane : sane ready = true ∧ Sound ready := ⟨by decide +kernel, sound_of (by decide +kernel)⟩

/-- The state with one work in progress. -/
def busy (s : State) (op : Nat) : State := { s with mgmt := { s.mgmt with works := [{ op := op }] } }

/-- The state with an open transaction. -/
def within (s : State) (t : CfgTxn) : State := { s with mgmt := { s.mgmt with txn := some t } }

/-- The state with one port's link changed. -/
def linked (s : State) (p : Fin 24) (f : PortLink → PortLink) : State := s.updPort p fun x => { x with link := f x.link }

/-- The state with the cache in a state. -/
def caching (s : State) (c : CacheState) : State := { s with hbm := { s.hbm with cache := c } }

theorem wit_IdentityAndStatusAnswer :
    Served 0x0100 (area []) ready ∧ Served 0x0101 (area []) ready ∧
    (Served 0x0300 (area [1]) ready ∧ fld (area [1]).payload 16 16 = (1 : Fin 24).val ∧ 1 ≤ (area [1]).payload.length ∧
      isOlk ready 1 = true ∧ (ready.port 1).link.state = .active) ∧
    (Served 0x0300 (area [1]) (linked ready 1 fun x => { x with state := .maint })) ∧
    (isOlk (linked ready 1 fun x => { x with state := .detect }) 1 = true ∧ ((linked ready 1 fun x => { x with state := .detect }).port 1).link.state = .detect) ∧
    (Served 0x0300 (area [2]) ready ∧ fld [2] 16 16 = (2 : Fin 24).val ∧ personality ready 2 = .peerCxl3 ∧ (ready.port 2).link.state ≠ .maint) := by
  and_intros <;> decide +kernel

theorem wit_TransactionsOpenStageAndEnd :
    let set : List Byte := leBytes 4 9 ++ leBytes 4 keyWmWb ++ leBytes 2 0 ++ leBytes 2 2 ++ leBytes 2 512
    let get : List Byte := leBytes 4 0 ++ leBytes 4 keyPersonality ++ leBytes 2 23 ++ leBytes 1 0
    let s := within ready { id := 9 }
    let t := within ready { id := 9, domain := true }
    (Sound ready ∧ Served 0x0200 (area [0]) ready ∧ ready.mgmt.txn = none ∧ fld [0] 16 16 = 0 ∧ fld [1] 16 16 = 1 ∧ (area [1]).via = .primary ∧
      1 ≤ [0].length) ∧
    (Sound s ∧ Served 0x0200 (area [0]) s ∧ s.mgmt.txn = some { id := 9 }) ∧
    (Served 0x0201 (area set) s ∧ keyInfo (fld set 20 23) = some { len := 2, dflt := 448 } ∧ fld set 26 27 = 2 ∧ 12 + 2 ≤ set.length ∧
      indexOk { len := 2, dflt := 448 } (fld set 24 25) = true ∧ valueOk (fld set 20 23) (leAt set 12 2) = true ∧
      openTxn s (fld set 16 19) = some { id := 9 }) ∧
    (Sound t ∧ Served 0x0201 (area set) t ∧ openTxn t (fld set 16 19) = some { id := 9, domain := true }) ∧
    (Served 0x0202 (area get) s ∧ (keyInfo (fld get 20 23)).isSome = true ∧ 11 ≤ get.length ∧ fld get 24 25 = 23 ∧ bitOf (fld get 26 26) 0 = false) ∧
    (Served 0x0204 (area (leBytes 4 9)) s ∧ openTxn s (fld (leBytes 4 9) 16 19) = some { id := 9 }) ∧
    (Served 0x0204 (area (leBytes 4 8)) s ∧ openTxn s (fld (leBytes 4 8) 16 19) = none) := by
  and_intros <;> decide +kernel

theorem wit_CommitValidatesAndArms :
    let id : List Byte := leBytes 4 9
    let good : CfgTxn := { id := 9, staged := [⟨keyWmWb, 0, 100⟩] }
    let bad : CfgTxn := { id := 9, staged := [⟨keyBind, 5, 31 + 32⟩] }
    (Served 0x0203 (area id) (within ready { id := 9 }) ∧ 4 ≤ id.length ∧ openTxn (within ready { id := 9 }) (fld id 16 19) = some { id := 9 } ∧
      ready.dom.prepared = none) ∧
    (Sound (within ready bad) ∧ Served 0x0203 (area id) (within ready bad) ∧ openTxn (within ready bad) (fld id 16 19) = some bad ∧ bad.domain = false ∧
      bad.staged ≠ [] ∧ (validate (within ready bad) bad.staged).isSome = true) ∧
    (Sound (within ready good) ∧ Served 0x0203 (area id) (within ready good) ∧ openTxn (within ready good) (fld id 16 19) = some good ∧
      good.staged ≠ [] ∧ validate (within ready good) good.staged = none) := by
  and_intros <;> decide +kernel

theorem wit_PortMaintAndCalibrate :
    let maint := linked ready 0 fun x => { x with state := .maint }
    let running := linked ready 0 fun x => { x with state := .maint, calRunning := true }
    (Served 0x0301 (area [0, 0]) ready ∧ fld [0, 0] 16 16 = (0 : Fin 24).val ∧ personality ready 0 ≠ .off ∧ fld [0, 0] 17 17 = 0 ∧
      (ready.port 0).link.state ≠ .maint) ∧
    (Sound maint ∧ Served 0x0301 (area [0, 1]) maint ∧ personality maint 0 ≠ .off ∧ fld [0, 1] 17 17 = 1 ∧ (maint.port 0).link.state = .maint ∧
      (maint.port 0).link.calRunning = false) ∧
    (Sound running ∧ Served 0x0301 (area [0, 1]) running ∧ (running.port 0).link.state = .maint ∧ (running.port 0).link.calRunning = true) ∧
    (Served 0x0302 (area [0]) maint ∧ Served 0x0302 (area [0]) ready ∧ Served 0x0303 (area [0]) ready ∧ Served 0x0303 (area [2]) ready) ∧
    (fld [23, 1] 16 16 = (23 : Fin 24).val ∧ personality ready 23 = .off ∧ Served 0x0301 (area [23, 1]) ready ∧ fld [23, 1] 17 17 ≤ 1 ∧
      Served 0x0302 (area [23, 1]) ready ∧ Served 0x0303 (area [23, 1]) ready) := by
  and_intros <;> decide +kernel

theorem wit_PoolAndCacheReports :
    Served 0x0400 (area [1, 1]) ready ∧ 2 ≤ (area [1, 1]).payload.length ∧ Served 0x0401 (area []) ready ∧ Served 0x0504 (area []) ready := by
  and_intros <;> decide +kernel

theorem wit_DiscardCopyAndErase :
    let d : List Byte := leBytes 8 0 ++ leBytes 8 (2 ^ 52) ++ leBytes 4 60000
    let c : List Byte := leBytes 8 0 ++ leBytes 8 4096 ++ leBytes 8 4096 ++ leBytes 4 1
    let k : List Byte := leBytes 4 0x53415245
    let off := caching (linked (linked (linked ready 0 fun x => { x with state := .maint }) 2 fun x => { x with state := .maint }) 4 fun x => { x with state := .maint }) .disabled
    (Served 0x0410 (area d) ready ∧ 20 ≤ d.length ∧ fld d 24 31 = 2 ^ 52 ∧ fld d 16 23 + fld d 24 31 ≤ 2 ^ 52 ∧ fld d 24 31 % 4096 = 0 ∧
      fld d 32 35 = 60000 ∧ ready.mgmt.works = []) ∧
    (Sound (busy ready 0x0410) ∧ Served 0x0410 (area d) (busy ready 0x0410) ∧ ∃ w ∈ (busy ready 0x0410).mgmt.works, w.op = 0x0410) ∧
    (Served 0x0410 (area (List.replicate 20 0)) ready ∧ fld (List.replicate 20 0) 24 31 = 0) ∧
    (Served 0x0412 (area c) ready ∧ 28 ≤ c.length ∧ fld c 16 23 + fld c 32 39 ≤ fld c 24 31 ∧ fld c 40 43 = 1 ∧
      rangeMapped ready (fld c 16 23) (fld c 32 39) = true ∧ rangeMapped ready (fld c 24 31) (fld c 32 39) = true) ∧
    (Sound (busy ready 0x0412) ∧ Served 0x0412 (area c) (busy ready 0x0412) ∧ ∃ w ∈ (busy ready 0x0412).mgmt.works, w.op = 0x0412) ∧
    (Sound off ∧ Served 0x0411 (area k) off ∧ fld k 16 19 = 0x53415245 ∧ off.hbm.cache = .disabled ∧
      (∀ p, isPeer off p = true → (off.port p).link.state = .maint)) ∧
    (Served 0x0411 (area k) ready ∧ ready.hbm.cache ≠ .disabled ∧ isPeer ready 0 = true ∧ (ready.port 0).link.state ≠ .maint) := by
  and_intros <;> decide +kernel

theorem wit_CacheCommandsStartTheirWork :
    let w : List Byte := leBytes 4 60000
    let f : List Byte := leBytes 8 0 ++ leBytes 8 (2 ^ 52) ++ leBytes 4 1
    (Served 0x0500 (area w) ready ∧ 4 ≤ w.length ∧ fld w 16 19 = 60000 ∧ ready.hbm.cache = .enabled) ∧
    (Sound (caching ready .draining) ∧ Served 0x0500 (area w) (caching ready .draining)) ∧
    (Sound (caching ready .disabled) ∧ Served 0x0500 (area w) (caching ready .disabled) ∧ Served 0x0501 (area []) (caching ready .disabled)) ∧
    (Served 0x0501 (area []) ready ∧ ready.mgmt.windowCache = none) ∧
    (Served 0x0502 (area w) ready ∧ (∀ w ∈ ready.mgmt.works, w.op ≠ 0x0502 ∧ w.op ≠ 0x0503)) ∧
    (Served 0x0502 (area w) (caching ready .disabled)) ∧
    (Served 0x0502 (area w) (busy ready 0x0503) ∧ Sound (busy ready 0x0503) ∧ ∃ w ∈ (busy ready 0x0503).mgmt.works, w.op = 0x0502 ∨ w.op = 0x0503) ∧
    (Served 0x0503 (area f) ready ∧ 20 ≤ f.length ∧ fld f 16 23 % 4096 = 0 ∧ fld f 24 31 = 2 ^ 52 ∧ fld f 32 35 = 1) ∧
    Served 0x0503 (area f) (busy ready 0x0502) := by
  and_intros <;> decide +kernel

theorem wit_AgentCommands :
    let at' := fun (x : BindStatus) => ready.updBind 5 fun b => { b with status := x }
    (Served 0x0600 (area [5]) ready ∧ 1 ≤ (area [5]).payload.length ∧ (ready.bind 5).epoch < 256) ∧
    (Served 0x0601 (area [63]) (busy ready 0x0601) ∧ Sound (busy ready 0x0601) ∧ fld [63] 16 16 = 63) ∧
    (Served 0x0601 (area [63]) ready ∧ (ready.bind 63).status = .idle ∧ (∀ w ∈ ready.mgmt.works, w.op ≠ 0x0601)) ∧
    (Served 0x0601 (area [5]) (at' .withdrawn) ∧ ((at' .withdrawn).bind 5).status = .withdrawn) ∧
    (Served 0x0601 (area [5]) (at' .disowning) ∧ Sound (at' .disowning) ∧ ((at' .disowning).bind 5).status = .disowning) ∧
    (Served 0x0601 (area [5]) ready ∧ (ready.bind 5).status = .active) := by
  and_intros <;> decide +kernel

/-- The ready device as the primary of a formed ring of two. -/
def primary : State := { ready with dom := { ready.dom with straps := 6, formed := true, n := 2, linkDelay := 80, formId := 9 } }

/-- The ready device as a secondary of a formed ring, device 1. -/
def secondary : State := { ready with dom := { ready.dom with straps := 4, index := some 1, formed := true, n := 2, linkDelay := 80, formId := 9 } }

theorem wit_ScrubAndLogCommands :
    let h : List Byte := [0, 0, 1, 0] ++ leBytes 4 0 ++ leBytes 8 0 ++ leBytes 8 (hbmTop true)
    let b : List Byte := [1, 1, 1, 0] ++ leBytes 4 0 ++ leBytes 8 (8191 * 2 ^ 21) ++ leBytes 8 (2 ^ 21)
    let z : List Byte := [0, 0, 0, 0] ++ leBytes 4 0 ++ leBytes 8 0 ++ leBytes 8 4096
    let on := { ready with prot := { ready.prot with scrub := { ready.prot.scrub with state := 1 } } }
    let r : LogRec := { seq := 5, cls := 2 }
    let logged := { ready with prot := { ready.prot with log := [{ seq := 6 }, r, { seq := 4 }], nextSeq := 7 } }
    (Served 0x0700 (area h) ready ∧ 24 ≤ h.length ∧ unnamedZero [(16, 19), (24, 39)] h = true ∧ fld h 18 19 ≠ 0 ∧ fld h 32 39 ≠ 0 ∧ fld h 16 16 = 0 ∧
      fld h 24 31 % 4096 = 0 ∧ fld h 32 39 % 4096 = 0 ∧ fld h 24 31 + fld h 32 39 = hbmTop ready.fuses.is144 ∧ ready.prot.scrub.state ≠ 1) ∧
    (Sound on ∧ Served 0x0700 (area h) on ∧ on.prot.scrub.state = 1) ∧
    (Served 0x0700 (area b) ready ∧ unnamedZero [(16, 19), (24, 39)] b = true ∧ fld b 16 16 = 1 ∧ fld b 17 17 = (1 : Fin 24).val ∧
      (ready.port 1).mem.taken = true ∧ fld b 24 31 % 2 ^ 21 = 0 ∧ fld b 24 31 + fld b 32 39 ≤ (ready.port 1).mem.ek * 2 ^ 21) ∧
    (Served 0x0700 (area z) ready ∧ unnamedZero [(16, 19), (24, 39)] z = true ∧ fld z 18 19 = 0) ∧ Served 0x0701 (area []) ready ∧
    (Served 0x0703 (area (leBytes 8 0 ++ [63])) ready ∧ 9 ≤ (leBytes 8 0 ++ [63]).length ∧ fld (leBytes 8 0 ++ [63]) 24 24 = 63 ∧ ready.prot.log = [] ∧
      ready.prot.nextSeq ≤ fld (leBytes 8 0 ++ [63]) 16 23) ∧
    (Sound logged ∧ Served 0x0703 (area (leBytes 8 5 ++ [1])) logged ∧ logged.prot.log = [{ seq := 6 }] ++ r :: [{ seq := 4 }] ∧
      fld (leBytes 8 5 ++ [1]) 16 23 = r.seq ∧ r.lost = false) := by
  and_intros <;> decide +kernel

theorem wit_RetireCommand :
    let e : List Byte := [0, 1, 0, 0] ++ leBytes 4 8190
    let f : List Byte := [1, 0, 0, 0] ++ leBytes 4 31457279
    let k : List Byte := [2, 3, 15, 2, 3]
    let recs := { ready with pool := { ready.pool with recs := [{ bx := 8190, retired := true }] } }
    let frames := { ready with hbm := { ready.hbm with frames := [{ num := 31457279, state := .retired }] } }
    let banks := { ready with hbm := { ready.hbm with banks := List.replicate 64 (0, 0, 0, 0) } }
    (Served 0x0702 (area e) ready ∧ 8 ≤ e.length ∧ unnamedZero [(16, 17), (20, 23)] e = true ∧ fld e 16 16 = 0 ∧ fld e 17 17 = (1 : Fin 24).val ∧
      (ready.port 1).mem.taken = true ∧ fld e 20 23 < (ready.port 1).mem.ek - (ready.port 1).mem.metaExt ∧
      recOf ready ((ready.port 1).mem.bxBase + fld e 20 23) = none ∧ retiredCount ready 0 < retireLimit 0) ∧
    (Sound recs ∧ Served 0x0702 (area e) recs ∧ (recOf recs 8190).map (·.retired) = some true) ∧
    (Served 0x0702 (area f) ready ∧ unnamedZero [(16, 16), (20, 23)] f = true ∧ fld f 16 16 = 1 ∧ fld f 20 23 < hankCount ready.fuses.is144 ∧
      isRetired ready (fld f 20 23) = false ∧ retiredCount ready 1 < retireLimit 1) ∧
    (Sound frames ∧ Served 0x0702 (area f) frames ∧ isRetired frames (fld f 20 23) = true) ∧
    (Served 0x0702 (area k) ready ∧ 5 ≤ k.length ∧ fld k 16 16 = 2 ∧ fld k 17 17 = 3 ∧ fld k 18 18 = 15 ∧ fld k 19 19 < nsid ready.fuses.is144 ∧
      fld k 20 20 = 3 ∧ (3, 15, 2, 3) ∉ ready.hbm.banks ∧ ready.hbm.banks.length < retireLimit 2 ∧ ready.hbm.bankJob = none) ∧
    (Sound banks ∧ Served 0x0702 (area k) banks ∧ (3, 15, 2, 3) ∉ banks.hbm.banks ∧ retireLimit 2 ≤ banks.hbm.banks.length) := by
  and_intros <;> decide +kernel

/-- The limits of extents and frames are reached by as many retirements. -/
theorem wit_RetireCommand_limits :
    let full := fun (kind : Nat) => { ready with led := { ready.led with retirements := List.replicate (retireLimit kind) (kind, 0, 0, 0, 0, 0) } }
    let e : List Byte := [0, 1, 0, 0] ++ leBytes 4 8190
    let f : List Byte := [1, 0, 0, 0] ++ leBytes 4 31457279
    (Sound (full 0) ∧ Served 0x0702 (area e) (full 0) ∧ retireLimit 0 ≤ retiredCount (full 0) 0 ∧ recOf (full 0) 8190 = none) ∧
    (Sound (full 1) ∧ Served 0x0702 (area f) (full 1) ∧ retireLimit 1 ≤ retiredCount (full 1) 1 ∧ isRetired (full 1) 31457279 = false) := by
  have hc : ∀ k, retiredCount { ready with led := { ready.led with retirements := List.replicate (retireLimit k) (k, 0, 0, 0, 0, 0) } } k = retireLimit k := by
    intro k; simp [retiredCount, List.countP_replicate]
  and_intros <;> first | exact Nat.le_of_eq (hc _).symm | exact sound_of (by decide +kernel) | exact served_of (by decide +kernel) | decide +kernel

theorem wit_CounterCommands :
    let p : List Byte := leBytes 2 831 ++ [1, 0] ++ leBytes 4 0x0401 ++ [0, 0]
    let w : List Byte := leBytes 2 831 ++ [1, 0] ++ leBytes 4 0 ++ leBytes 8 (2 ^ 48 - 1)
    let r : List Byte := leBytes 2 332 ++ leBytes 2 500
    (Served 0x0800 (area p) ready ∧ 10 ≤ p.length ∧ unnamedZero [(16, 18), (20, 25)] p = true ∧ fld p 16 17 < 832 ∧
      eventOk (fld p 16 17) (fld p 20 23) (fld p 24 24) = true) ∧
    (Served 0x0801 (area w) ready ∧ 16 ≤ w.length ∧ unnamedZero [(16, 18), (24, 31)] w = true ∧ fld w 16 17 < 832 ∧ fld w 24 31 < 2 ^ 48) ∧
    (Served 0x0802 (area [19, 1]) ready ∧ fld [19, 1] 16 16 = 19 ∧ fld [19, 1] 17 17 = 1) ∧
    (Served 0x0803 (area r) ready ∧ fld r 18 19 = 500 ∧ fld r 16 17 + fld r 18 19 = 832) := by
  and_intros <;> decide +kernel

theorem wit_TraceSelftestLedgerAndCalendar :
    let hist := { ready with obs := { ready.obs with histMode := true } }
    (Served 0x0820 (area [15]) ready ∧ fld [15] 16 16 = (15 : Fin 16).val ∧ ready.obs.histMode = false) ∧
    (Sound hist ∧ Served 0x0820 (area [15]) hist ∧ hist.obs.histMode = true ∧ Served 0x0821 (area [23, 7]) hist ∧ fld [23, 7] 16 16 = (23 : Fin 24).val ∧
      fld [23, 7] 17 17 = 7) ∧ Served 0x0821 (area [23, 7]) ready ∧
    (Served 0x0810 (area [0]) ready ∧ Served 0x0810 (area [1]) ready ∧ Served 0x0810 (area [2]) ready ∧ fld [2] 16 16 = 2 ∧ ready.obs.stalled = []) ∧
    (Served 0x0910 (area [0]) ready ∧ Served 0x0910 (area [1]) ready ∧ Served 0x0910 (area [2]) ready) ∧
    (Served 0x0A00 (area [4, 0, 0, 0, 0, 0, 0, 0]) ready ∧ unnamedZero [(16, 16), (20, 23)] [4, 0, 0, 0, 0, 0, 0, 0] = true ∧
      fld [4, 0, 0, 0, 0, 0, 0, 0] 16 16 = 4) ∧
    (Served 0x0A10 (area (leBytes 8 1700000000 ++ leBytes 4 999999999)) ready ∧ fld (leBytes 8 1700000000 ++ leBytes 4 999999999) 24 27 = 999999999) := by
  and_intros <;> decide +kernel

theorem wit_ClockCommands :
    let gated := { ready with clk := { ready.clk with gates := (List.range 4).map fun i => { level := 3, index := 15, sub := i } } }
    let one := { ready with clk := { ready.clk with gates := [{ level := 3, index := 15, sub := 3 }] } }
    let work := one.updSlc 15 fun x => { x with txns := [{ kind := .req .atomic }] }
    (Served 0x0900 (area [3, 15, 3, 0]) gated ∧ Sound gated ∧ gateNodeOk 3 15 3 = true ∧ fld [3, 15, 3, 0] 19 19 = 0) ∧
    (Served 0x0900 (area [3, 15, 3, 1]) one ∧ Sound one ∧ gateReq one 3 15 3 = true) ∧
    (Served 0x0900 (area [1, 3, 0, 1]) one ∧ gateReq one 1 3 0 = false ∧ ∃ x ∈ gateChildren 2 15, gateReq one x.1 x.2.1 x.2.2 = true) ∧
    (Served 0x0900 (area [2, 15, 0, 1]) one ∧ gateReq one 2 15 0 = false ∧ ∃ x ∈ gateChildren 2 15, gateReq one x.1 x.2.1 x.2.2 = false) ∧
    (Served 0x0900 (area [3, 15, 0, 1]) work ∧ Sound work ∧ gateReq work 3 15 0 = false ∧ (∀ x ∈ gateChildren 3 15, gateReq work x.1 x.2.1 x.2.2 = true) ∧
      gateWork work 3 15 0 = true) ∧
    (Served 0x0900 (area [2, 15, 0, 1]) gated ∧ gateReq gated 2 15 0 = false ∧ (∀ x ∈ gateChildren 2 15, gateReq gated x.1 x.2.1 x.2.2 = true) ∧
      gateWork gated 2 15 0 = false) ∧ Served 0x0901 (area []) ready := by
  and_intros <;> decide +kernel

theorem wit_FirmwareCommands :
    let c : List Byte := leBytes 4 2 ++ leBytes 4 8352 ++ [0, 0, 0, 0] ++ [9, 9]
    let staged := { ready with sec := { ready.sec with staged := [[1, 1]], stagedLen := 2 } }
    let both := { ready with sec := { ready.sec with slotB := some {}, running := some {} } }
    (Sound staged ∧ Served 0x0B00 (area c) staged ∧ 12 ≤ c.length ∧ unnamedZero [(16, 24), (28, 27)] c = true ∧ fld c 20 23 ≤ 2 ^ 25 ∧
      bitOf (fld c 24 24) 0 = false ∧ fld c 16 19 = staged.sec.stagedLen ∧ fld c 16 19 ≠ 0 ∧ fld c 16 19 + (c.drop 12).length < fld c 20 23) ∧
    (Served 0x0B00 (area c) ready ∧ fld c 16 19 ≠ ready.sec.stagedLen) ∧
    (Sound both ∧ Served 0x0B01 (area [1]) both ∧ fld [1] 16 16 = 1 ∧ slotVerifies both 1 = true ∧ Served 0x0B01 (area [1]) ready ∧
      slotVerifies ready 1 = false) ∧
    (Served 0x0B02 (area [1]) both ∧ both.sec.active ≠ 1 ∧ liveFits both 1 = true ∧ both.mgmt.txn = none ∧ both.dom.prepared = none) ∧
    (Served 0x0B02 (area [0]) both ∧ fld [0] 16 16 = both.sec.active) ∧
    (Sound (within both { id := 3 }) ∧ Served 0x0B02 (area [1]) (within both { id := 3 }) ∧ (within both { id := 3 }).mgmt.txn = some { id := 3 }) := by
  and_intros <;> decide +kernel

theorem wit_DomainCommands :
    Sound primary ∧ Served 0x0C00 (area []) primary ∧ isPrimary primary = true ∧ onRing primary = true ∧ Served 0x0C01 (area []) ready ∧
    isPrimary ready = true := by
  and_intros <;> decide +kernel

theorem wit_RingFormation :
    let out := { primary with dom := { primary.dom with forming := true, formed := false } }
    let back : RingFrame := { dst := 0xFE, src := 0, payload := leBytes 1 2 ++ leBytes 2 9 ++ leBytes 4 100 }
    let other : RingFrame := { back with src := 5, payload := leBytes 1 2 ++ leBytes 2 8 ++ leBytes 4 100 }
    let fresh := { secondary with dom := { secondary.dom with index := none, formed := false } }
    let high : RingFrame := { back with payload := leBytes 1 63 ++ leBytes 2 9 ++ leBytes 4 100 }
    let done : RingFrame := { dst := 0xFF, src := 0, payload := leBytes 1 2 ++ leBytes 2 9 ++ leBytes 4 80 }
    (onRing out = true ∧ frameGood 1 other = true ∧ out.dom.index ≠ some other.src ∧ isPrimary out = true ∧ out.dom.forming = true ∧ leAt other.payload 1 2 ≠ out.dom.formId ∧
      Sound out) ∧
    (frameGood 1 { back with src := 0xFE } = true ∧ out.dom.index ≠ some 0xFE ∧ leAt back.payload 1 2 = out.dom.formId) ∧
    (Sound fresh ∧ onRing fresh = true ∧ frameGood 1 high = true ∧ fresh.dom.index ≠ some high.src ∧ isPrimary fresh = false ∧ 10 ∈ fresh.clk.stepDone ∧
      leAt high.payload 0 1 < 64 ∧ fresh.dom.index = none) ∧
    (Sound secondary ∧ onRing secondary = true ∧ secondary.dom.index = some 1 ∧ 1 ≠ leAt back.payload 0 1 ∧ secondary.dom.index ≠ some back.src) ∧
    (frameGood 2 done = true ∧ secondary.dom.index ≠ some done.src ∧ leAt done.payload 1 2 = secondary.dom.formId ∧ secondary.dom.index ≠ none ∧ done.dst = 0xFF) := by
  and_intros <;> decide +kernel

theorem wit_TimeStateAndFaultFrames :
    let sync := fun (ns : Nat) => ({ dst := 0xFF, src := 0, payload := leBytes 8 ns ++ leBytes 4 0 ++ leBytes 4 80 } : RingFrame)
    let v := fun (ns : Nat) => 2 * leAt (sync ns).payload 0 8 + (leAt (sync ns).payload 8 4 + ownIndex secondary * secondary.dom.linkDelay) / 8
    let st : RingFrame := { dst := 0, src := 63, payload := [15] }
    let ft : RingFrame := { dst := 0xFF, src := 5, payload := leBytes 1 4 ++ leBytes 4 0x00060005 }
    (onRing secondary = true ∧ frameGood 3 (sync 9000) = true ∧ secondary.dom.index ≠ some 0 ∧ isPrimary secondary = false ∧ secondary.dom.formed = true ∧
      secondary.dom.timeRun = true) ∧
    (secondary.dom.time + 2000 < v 9000 ∧ v 100 + 2000 < secondary.dom.time ∧ v 5995 = secondary.dom.time + 2000 ∧ secondary.dom.time = v 3995 + 2000) ∧
    (Sound primary ∧ onRing primary = true ∧ isPrimary primary = true ∧ primary.dom.formed = true ∧ secondary.dom.index ≠ none) ∧
    ({ ready with dom := { ready.dom with down := true } } : State).dom.down = true ∧
    (frameGood 4 st = true ∧ primary.dom.index = some st.dst ∧ st.src = (63 : Fin 64).val ∧ primary.dom.index ≠ some st.src) ∧
    (frameGood 5 ft = true ∧ secondary.dom.index ≠ some ft.src ∧ ft.dst = 0xFF ∧ secondary.prot.log = []) ∧
    frameGood 4 { st with crc := some 0 } = false := by
  and_intros <;> decide +kernel

theorem wit_RelaysNotesAndRingDown :
    let asked := { primary with dom := { primary.dom with relay := some { id := 4, target := 1, op := 0x0100, got := [] } } }
    let rsp := fun (last : Nat) => ({ dst := 0, src := 1, payload := leBytes 2 4 ++ leBytes 2 0 ++ leBytes 2 16 ++ leBytes 2 last ++ List.replicate 16 0 } : RingFrame)
    let cmd := fun (last : Nat) => ({ dst := 1, src := 0, payload := leBytes 2 4 ++ leBytes 2 0 ++ leBytes 2 16 ++ leBytes 2 last ++ List.replicate 16 0 } : RingFrame)
    let note : RingFrame := { dst := 0, src := 1, payload := leBytes 2 0 ++ leBytes 4 0 ++ leBytes 2 2 ++ leBytes 8 1 ++ leBytes 8 3 }
    (Sound asked ∧ onRing asked = true ∧ frameGood 0x11 (rsp 1) = true ∧ asked.dom.index = some (rsp 1).dst ∧ (rsp 1).dst ≠ 0xFF ∧ asked.dom.index ≠ some 1 ∧
      (asked.dom.relay.map fun r => (r.id, r.target, r.got.length)) = some (leAt (rsp 1).payload 0 2, (rsp 1).src, leAt (rsp 1).payload 2 2) ∧
      bitOf (leAt (rsp 1).payload 6 1) 0 = true ∧ bitOf (leAt (rsp 0).payload 6 1) 0 = false) ∧
    (Sound secondary ∧ frameGood 0x10 (cmd 1) = true ∧ secondary.dom.index = some (cmd 1).dst ∧ secondary.dom.index ≠ some 0 ∧ isPrimary secondary = false ∧
      leAt (cmd 1).payload 2 2 = 0 ∧ bitOf (leAt (cmd 1).payload 6 1) 0 = true ∧ bitOf (leAt (cmd 0).payload 6 1) 0 = false) ∧
    isPrimary asked = true ∧
    (frameGood 0x12 note = true ∧ primary.dom.index = some note.dst ∧ note.src < 64 ∧ primary.mgmt.intake.length < 256 ∧ leAt note.payload 6 1 = 2 ∧
      (peerOf primary note.src).noteSeq = leAt note.payload 0 2 ∧ leAt note.payload 0 2 < 65536) ∧
    (secondary.dom.formed = true ∧ secondary.dom.down = false ∧ secondary.prot.log = []) := by
  and_intros <;> decide +kernel

theorem wit_CxlMailboxCommands :
    let e : CxlEvent := { handle := 4, kind := 1, addr := 9, time := 5 }
    let s := ready.updPort 2 fun x => { x with cxl := { x.cxl with evFatal := [e] } }
    (Sound ready ∧ isCxlPeer ready 2 = true ∧ isCxlPeer ready 4 = true ∧ ([3] : List Byte).length = 1 ∧ leAt [3] 0 1 = 3 ∧ 3 < leAt [4] 0 1) ∧
    (celUuid.length = 16 ∧ (celUuid ++ leBytes 4 4 ++ leBytes 4 (celLog.length - 4)).length = 24 ∧
      leAt (celUuid ++ leBytes 4 4 ++ leBytes 4 (celLog.length - 4)) 16 4 + leAt (celUuid ++ leBytes 4 4 ++ leBytes 4 (celLog.length - 4)) 20 4 = celLog.length) ∧
    (6 ≤ ([3, 1, 0, 0, 0, 0] : List Byte).length ∧ leAt [3, 1, 0, 0, 0, 0] 0 1 = 3 ∧ bitOf (leAt [3, 1, 0, 0, 0, 0] 1 1) 0 = true) ∧
    (Sound s ∧ isCxlPeer s 2 = true ∧ bitOf (leAt [3, 0, 1, 0, 0, 0, 4, 0] 1 1) 0 = false ∧ leAt [3, 0, 1, 0, 0, 0, 4, 0] 2 1 = 1 ∧
      evLog (s.port 2).cxl (leAt [3, 0, 1, 0, 0, 0, 4, 0] 0 1) = e :: [] ∧ leAt [3, 0, 1, 0, 0, 0, 4, 0] 6 2 = e.handle % 65536) ∧
    ((∀ b ∈ ([1, 0, 5, 1] : List Byte), b.toNat % 4 ≤ 1) ∧ (leBytes 8 77).length = 8) := by
  and_intros <;> decide +kernel

theorem wit_CxlPortCommands :
    let idle := (ready.updBind 6 fun b => { b with status := .idle }).updPort 2 fun x => { x with cxl := { x.cxl with memEnable := false, bound := none } }
    let on := (idle.updPort 2 fun x => { x with cxl := { x.cxl with memEnable := true } })
    let sess := { ready with sec := { ready.sec with sessions := [{ id := 7, inst := 4, established := true }] } }
    (isCxlPeer idle 2 = true ∧ (idle.port 2).cxl.up = true ∧ (idle.port 2).cxl.bound = none ∧ cxlAgent on 2 = some 6 ∧ Sound idle) ∧
    (Sound ready ∧ isCxlPeer ready 2 = true ∧ (ready.port 2).cxl.up = true ∧ (ready.port 2).cxl.decoders[(0 : Fin 4)].committed = false ∧
      (ready.port 2).cxl.bound = some 6 ∧ dpaSize (dpaJoin ready 6) = 2 ^ 30 ∧ (ready.port 2).cxl.decoders[(3 : Fin 4)].committed = false) ∧
    ((ready.port 2).cxl.conflicts = [] ∧ (ready.port 2).tx.snpQ = []) ∧
    (Sound sess ∧ personality sess 2 = .peerCxl3 ∧ sessionOf sess 7 = some { id := 7, inst := 4, established := true } ∧ 4 = 2 + (2 : Fin 24).val) ∧
    (personality ready 3 = .memCxl ∧ (ready.port 3).cxl.up = true ∧ ready.prot.log = [] ∧ (ready.port 2).tx.packed = [] ∧
      ({ capacity := 2 ^ 30 } : ExpanderDesc).hdmDb = false ∧ 1 ≤ ({ capacity := 2 ^ 30 } : ExpanderDesc).capacity / 2 ^ 30 ∧
      ({ capacity := 2 ^ 30, commits := false } : ExpanderDesc).commits = false ∧ ({ capacity := 2 ^ 30, ide := true } : ExpanderDesc).commits = true) := by
  and_intros <;> decide +kernel

/-- The chain has its header, so that a part of it can be asked for. -/
theorem wit_SpdmReports_chain : 0 < (chain ready).length ∧ 3 < (chain ready).length := by
  simp [chain, leBytes]

theorem wit_SpdmReports :
    let met := { ready with sec := { ready.sec with connected := [0, 1], negotiated := [1] } }
    (Sound ready ∧ spdmUp ready 0 = true ∧ spdmUp ready 1 = true ∧ spdmUp ready 4 = true ∧ 0 ∉ ready.sec.connected ∧ 0 ∉ ready.sec.negotiated) ∧
    (Sound met ∧ spdmUp met 1 = true ∧ 1 ∈ met.sec.connected ∧ 1 ∈ met.sec.negotiated) ∧
    (∃ v, measurement met 0x57 = some (2, v)) ∧ (∃ v, measurement met 1 = some (0, v)) := by
  and_intros <;> first | exact ⟨_, rfl⟩ | decide +kernel

theorem wit_SpdmSessions :
    let at' := fun (l : List SpdmSession) => { ready with sec := { ready.sec with connected := [1], negotiated := [1], sessions := l } }
    let x : SpdmSession := { id := 3, inst := 1 }
    (Sound (at' []) ∧ spdmUp (at' []) 1 = true ∧ 1 ∈ (at' []).sec.negotiated ∧ sessionAt (at' []) 1 3 = none) ∧
    ((at' [x, x, x]).sec.sessions.countP (·.inst == 1) = 3 ∧ (at' [x, x, x, x]).sec.sessions.countP (·.inst == 1) = 4 ∧ Sound (at' [x, x, x, x]) ∧
      spdmUp (at' [x, x, x, x]) 1 = true) ∧
    (sessionAt (at' [x]) 1 3 = some x ∧ x.established = false) ∧ sessionAt (at' [{ x with established := true }]) 1 3 = some { x with established := true } := by
  and_intros <;> decide +kernel

theorem ofLe_lt (bs : List Byte) : ofLe bs < 256 ^ bs.length := by
  induction bs with
  | nil => decide
  | cons b bs ih => have := b.isLt; simp only [ofLe, List.length_cons, Nat.pow_succ]; omega

/-- The device's own UDID is answered. -/
theorem wit_SidebandAndJtag_udid : udidOurs ready (0x1EF5 * 2 ^ 96 + 0x6424 * 2 ^ 80 + leAt (Config.sm3 ready.fuses.serial) 0 4) = true := by
  have h : leAt (Config.sm3 ready.fuses.serial) 0 4 < 2 ^ 32 := by
    have h1 := ofLe_lt (((Config.sm3 ready.fuses.serial).drop 0).take 4)
    have h2 : (((Config.sm3 ready.fuses.serial).drop 0).take 4).length ≤ 4 := by rw [List.length_take]; exact Nat.min_le_left _ _
    exact Nat.lt_of_lt_of_le h1 (Nat.pow_le_pow_right (by decide) h2)
  simp only [udidOurs]
  generalize leAt (Config.sm3 ready.fuses.serial) 0 4 = n at h ⊢
  simp only [bits, Nat.shiftRight_eq_div_pow, Bool.and_eq_true, beq_iff_eq]
  omega

theorem wit_SidebandAndJtag :
    let down := { ready with clk := { ready.clk with resetN := false, reset := some .pin } }
    (Sound ready ∧ ready.clk.reset = none ∧ udidOurs ready 0 = false) ∧ (Sound down ∧ down.clk.resetN = false) ∧ ready.clk.resetN = true ∧
    3 ≤ (15 : BitVec 4).toNat := by
  and_intros <;> first | decide +kernel | simp [udidOurs, bits]

theorem wit_TheBlockAsAMachine :
    let c := { ready with cons := { ready.cons with contained := true } }
    let counted := { ready with led := { ready.led with stal := [{ id := 9, index := 0, value := 3, written := 2 }] } }
    ready.pending = [] ∧ c.cons.contained = true ∧ resets (.gateStop 0 0 0) = false ∧
    (counted.led.stal ≠ [] ∧ counted.led.stal.Pairwise (fun a b => sameStal a b = false) ∧ ∀ x ∈ counted.led.stal, x.written ≤ x.value) := by
  and_intros <;> first | decide +kernel | exact List.pairwise_singleton _ _ | simp

theorem wit_ResponsesAndChecks :
    let bad : CmdArea := { area [] with resv := 1 }
    let second : CmdArea := { area [] with via := .secondary, target := 0xFF }
    let held := { ready with cons := { ready.cons with contained := true } }
    let rec' := { ready with mgmt := { ready.mgmt with state := .recovery } }
    let both := { held with mgmt := { held.mgmt with state := .recovery } }
    (handlerOf 0xFFFF = none ∧ hostUp ready = true ∧ ready.mgmt.pri.state = .idle ∧ isPrimary ready = true ∧ ready.mgmt.state = .running ∧ (area []).cookie < 2 ^ 32) ∧
    (bad.resv % 2 ^ 56 ≠ 0 ∧ 0x40 ≤ ({ area [] with target := 0x40 } : CmdArea).target % 256 ∧ 4080 < ({ area [] with payloadLen := 4081 } : CmdArea).payloadLen % 2 ^ 16) ∧
    (Made second ∧ smbusUp ready = true ∧ ready.mgmt.sec.state = .idle) ∧
    (Sound held ∧ Made (area []) ∧ Reaches 0x0411 (area []) held ∧ held.mgmt.state = .running ∧ held.cons.contained = true) ∧
    (Sound both ∧ Reaches 0x0203 (area []) both ∧ both.mgmt.state = .recovery ∧ both.cons.contained = true) ∧
    (Sound rec' ∧ Reaches 0x0411 (area []) rec' ∧ rec'.cons.contained = false) := by
  and_intros <;> first | decide +kernel | exact rfl | exact ⟨by decide +kernel, by decide +kernel, by decide +kernel, by decide +kernel⟩

theorem wit_HardwareAnswersAndCountsDoorbells :
    let at' := fun (x : MgmtState) => { ready with mgmt := { ready.mgmt with state := x } }
    let taken' := { ready with mgmt := { ready.mgmt with pri := { ready.mgmt.pri with state := .taken, ringIgnored := 255 } } }
    (Made (area []) ∧ Reaches 0x0100 (area []) (at' .notReady) ∧ (area []).via ≠ .relay ∧ Sound (at' .notReady)) ∧
    (Reaches 0x0100 (area []) (at' .halted) ∧ Reaches 0x0100 (area []) (at' .restarting) ∧ Reaches 0x0100 (area []) (at' .liveActivation)) ∧
    (hostUp secondary = true ∧ secondary.mgmt.pri.state = .idle ∧ isPrimary secondary = false ∧
      Reaches 0x0100 { area [] with via := .secondary, target := 1 } secondary) ∧
    (Sound taken' ∧ hostUp taken' = true ∧ taken'.mgmt.pri.state ≠ .idle) := by
  and_intros <;> first | decide +kernel | exact rfl |
    exact ⟨by decide +kernel, by decide +kernel, by decide +kernel, by decide +kernel⟩

theorem wit_RegisterReadsWithEffects :
    let nq := { ready with mgmt := { ready.mgmt with nq := [5, 6], nqHidden := 1 } }
    let new := { nq with mgmt := { nq.mgmt with nqHidden := 2 } }
    let tr := { ready with obs := { ready.obs with trace := [[1, 2], [3]], traceHidden := 1 } }
    let left := { tr with obs := { tr.obs with readLeft := [8, 9] } }
    let hid := { tr with obs := { tr.obs with traceHidden := 2 } }
    let obs := { ready with mgmt := { ready.mgmt with cfg := ⟨keyObsStream, 0, 1⟩ :: ready.mgmt.cfg } }
    let r : LogRec := { seq := 65536 + 65535, cls := 1 }
    let lg := { ready with prot := { ready.prot with log := [r] } }
    (Sound nq ∧ hostUp nq = true ∧ nq.mgmt.nq = 5 :: [6] ∧ nq.mgmt.nqHidden ≤ [6].length) ∧
    (Sound new ∧ hostUp new = true ∧ new.mgmt.nq.length ≤ new.mgmt.nqHidden ∧ Sound ready ∧ hostUp ready = true ∧ ready.mgmt.intake.length + 49 ≤ 256) ∧
    (Sound tr ∧ hostUp tr = true ∧ cfgGet tr keyObsStream 0 = 0 ∧ tr.obs.readLeft = [] ∧ tr.obs.trace = (1 :: [2]) :: [[3]] ∧ tr.obs.traceHidden ≤ [[3]].length) ∧
    (Sound left ∧ hostUp left = true ∧ left.obs.readLeft = 8 :: [9]) ∧ (Sound hid ∧ hostUp hid = true ∧ hid.obs.readLeft = [] ∧ hid.obs.trace.length ≤ hid.obs.traceHidden) ∧
    (0xFFFE < 65536 ∧ ¬(0xFFFE % 4 = 0) ∧ ¬(2 = 4 ∧ 0x08 % 4 = 0) ∧ ¬(2 = 8 ∧ 0x08 % 8 = 0)) ∧
    (Sound obs ∧ hostUp obs = true ∧ cfgGet obs keyObsStream 0 ≠ 0) ∧
    (Sound lg ∧ hostUp lg = true ∧ slotRecord lg 65535 = some r ∧ r.lost = false ∧ slotRecord lg 0 = none ∧ lg.prot.log.all (fun r => r.cls != 0x02) = true) := by
  and_intros <;> decide +kernel

theorem wit_RegisterWrites :
    let done := { ready with mgmt := { ready.mgmt with pri := { ready.mgmt.pri with state := .done } } }
    let wm := { ready with mgmt := { ready.mgmt with wms := ready.mgmt.wms.set 48 { crossed := true } } }
    let halt := { ready with mgmt := { ready.mgmt with state := .halted } }
    (Sound done ∧ hostUp done = true ∧ done.mgmt.pri.state = .done) ∧ (Sound ready ∧ hostUp ready = true ∧ ready.mgmt.pri.state ≠ .done) ∧
    (hostUp wm = true ∧ (wm.mgmt.wms[(48 : Fin 49)]).crossed = true ∧ (wm.mgmt.wms[(48 : Fin 49)]).recheck = false) ∧
    (hostUp halt = true ∧ halt.mgmt.state = .halted ∧ bitOf 0x53500001 0 = true ∧ bits 0x53500001 31 16 = 0x5350) ∧
    (ready.mgmt.state ≠ .halted ∧ bitOf 0x53500000 0 = false ∧ bits 0x53510001 31 16 ≠ 0x5350) ∧ configUp ready = true ∧
    (4092 % 4 = 0 ∧ 4092 < 4096 ∧ ¬(4 = 4 ∧ 2 % 4 = 0) ∧ ¬(4 = 8 ∧ 2 % 8 = 0)) := by
  and_intros <;> decide +kernel

theorem wit_VectorsAndNotificationPackets :
    let pend := { ready with hst := { ready.hst with vectors := ready.hst.vectors.set 31 { masked := false, pending := true } } }
    let held := { ready with hst := { ready.hst with d3hot := true, vectors := ready.hst.vectors.set 0 { held := true } } }
    let e : Event := { ntype := 2, arg := 5, word := some 9 }
    let noted := { ready with mgmt := { ready.mgmt with intake := [e] } }
    let full := { noted with mgmt := { noted.mgmt with nq := List.replicate 511 0 } }
    let r : LogRec := { seq := 1, cls := 0x0A, severity := 4 }
    let back := { ready with prot := { ready.prot with log := [r] } }
    (Sound pend ∧ hostUp pend = true ∧ (pend.hst.vectors[(31 : Fin 32)]).pending = true ∧ pend.hst.msixEnable = true ∧ pend.hst.busMaster = true ∧
      (pend.hst.vectors[(31 : Fin 32)]).masked = false) ∧
    (Sound ready ∧ hostUp ready = true ∧ (ready.hst.vectors[(0 : Fin 32)]).pending = false) ∧
    (configUp held = true ∧ (held.hst.vectors[(0 : Fin 32)]).held = true ∧ held.hst.d3hot = true ∧ configUp pend = true) ∧
    (spindleServes noted = true ∧ isPrimary noted = true ∧ noted.mgmt.intake = e :: [] ∧ noted.mgmt.nq.length + (packetWords e 0).length ≤ 512 ∧
      512 < full.mgmt.nq.length + (packetWords e 0).length ∧ full.mgmt.nqLost < 2 ^ 32 - 1 ∧ full.mgmt.intake = [e]) ∧
    (spindleServes ready = true ∧ ready.mgmt.dmaHalted = [] ∧ ready.mgmt.intake = [] ∧ ready.prot.log.all (fun r => r.notified || !(recNotified r)) = true) ∧
    (spindleServes back = true ∧ back.prot.log = [r] ∧ r.notified = false ∧ recNotified r = true ∧ back.mgmt.nq.length + 2 ≤ 512) := by
  and_intros <;> decide +kernel

theorem wit_SpindleTrapsAndHalts :
    let again := { ready with mgmt := { ready.mgmt with trapPages := [(7, 0)] }, clk := { ready.clk with half := 1999999999 } }
    let later := { again with clk := { again.clk with half := 2000000000 } }
    let halt := { ready with mgmt := { ready.mgmt with state := .halted } }
    let second := { ready with mgmt := { ready.mgmt with dmaRetried := [(3, 0x290400000)] }, sec := { ready.sec with staged := [[1]] } }
    let found : PageSources := { imageUe := true }
    let lost : PageSources := { imageUe := true, flashDigest := false }
    (spindleExecutes ready = true ∧ ready.mgmt.trapPages = [] ∧ found.inHandler = false ∧ found.flashDigest = true) ∧
    (spindleExecutes later = true ∧ nowNs later = 0 + 1000000000 ∧ ({} : PageSources).imageUe = false ∧ ({} : PageSources).imageDigest = true) ∧
    (spindleExecutes again = true ∧ again.mgmt.txn = none ∧ (7, 0) ∈ again.mgmt.trapPages ∧ nowNs again < 0 + 1000000000) ∧
    (ready.mgmt.txn = none ∧ ({ inHandler := true } : PageSources).inHandler = true ∧ lost.imageUe = true ∧ lost.flashDigest = false) ∧
    (halt.clk.reset = none ∧ spindleServes halt = false) ∧ (spindleServes ready = true ∧ (7, 63 / 64 * 64) ∉ ready.mgmt.dmaRetried) ∧
    (spindleServes second = true ∧ (3, 0x290400000 / 64 * 64) ∈ second.mgmt.dmaRetried ∧ second.sec.staged ≠ []) := by
  and_intros <;> decide +kernel

theorem wit_LinkKeyMessages :
    let x : SpdmSession := { id := 7, inst := 0, established := true }
    let sess := { ready with sec := { ready.sec with sessions := [x] } }
    let half := sess.updPort 0 fun y => { y with enc := { y.enc with owner := some 7, tx1 := some {}, rx1 := some {} } }
    let other := sess.updPort 0 fun y => { y with enc := { y.enc with owner := some 8 } }
    let usable : LinkKey := { usable := true }
    let on := sess.updPort 0 fun y => { y with enc := { y.enc with owner := some 7, on := true, tx1 := some usable, rx1 := some usable, tx0 := some {}, rx0 := some {} }, tx := { y.tx with phase := true } }
    let wait := sess.updPort 0 fun y => { y with link := { y.link with waitKeys := true } }
    (Sound sess ∧ sessionOf sess 7 = some x ∧ algTakes (begin sess) 0 = begin sess ∧ keyStatus sess 7 0 = 0 ∧ (sess.ports[(0 : Fin 24)]).enc.on = false) ∧
    (keyStatus sess 7 1 = 1 ∧ keyStatus other 7 0 = 2 ∧ Sound other ∧ sessionOf other 7 = some x ∧ algTakes (begin other) 0 = begin other) ∧
    (Sound half ∧ sessionOf half 7 = some x ∧ keyStatus half 7 0 = 0 ∧ keyOf (half.ports[(0 : Fin 24)]).enc false true = some {} ∧
      keyOf (half.ports[(0 : Fin 24)]).enc true true = some {} ∧ (half.ports[(0 : Fin 24)]).link.state = .active ∧ (half.ports[(0 : Fin 24)]).enc.on = false ∧
      keyOf (half.ports[(0 : Fin 24)]).enc false false = none) ∧
    (Sound on ∧ sessionOf on 7 = some x ∧ keyStatus on 7 0 = 0 ∧ algTakes (begin on) 0 = begin on ∧ (on.ports[(0 : Fin 24)]).enc.on = true ∧
      (on.ports[(0 : Fin 24)]).tx.phase = true ∧ keyOf (on.ports[(0 : Fin 24)]).enc false false = some {} ∧ keyOf (on.ports[(0 : Fin 24)]).enc true false = some {}) ∧
    (Sound wait ∧ sessionOf wait 7 = some x ∧ keyStatus wait 7 0 = 0 ∧ (wait.ports[(0 : Fin 24)]).link.waitKeys = true) := by
  and_intros <;> decide +kernel

/-- The state with its clock fields changed. -/
def clocked (s : State) (f : Clk → Clk) : State := { s with clk := f s.clk }

theorem wit_ResetsBeginAndEnd :
    let off := clocked ready fun c => { c with pwrgood := false }
    let pin := clocked ready fun c => { c with reset := some .pin, resetN := false }
    let hot := clocked ready fun c => { c with hot := true }
    let therm := clocked ready fun c => { c with thermN := true, reset := some .thermal }
    (ready.clk.pwrgood = true ∧ ready.clk.resetN = true ∧ ready.clk.reset = none) ∧ Sound ready ∧ off.clk.pwrgood = false ∧
    (pin.clk.resetN = false ∧ pin.clk.pwrgood = true ∧ pin.clk.reset = some .pin ∧ 2 ∈ pin.clk.stepDone) ∧
    (Sound hot ∧ hot.clk.pwrgood = true ∧ hot.clk.reset = none ∧ hot.clk.hot = true) ∧
    (([449, 449].foldl max (449 : Int)) < 450 ∧ (850 : Int) < [851].foldl max 300 ∧ (1100 : Int) < [1101].foldl max 300 ∧ [1100].foldl max (300 : Int) ≤ 1100) ∧
    (1100 : Int) < 1101 ∧ therm.clk.thermN = true := by
  and_intros <;> decide +kernel

theorem wit_ClockSourcesChange :
    let lost := clocked ready fun c => { c with refQualified := false, monitor := true, aon := .fallback, goodWindows := 7, gap := false, switching := [] }
    let mon := clocked ready fun c => { c with monitor := true, refQualified := true }
    let sw := clocked ready fun c => { c with switching := [0, 1] }
    let few := clocked ready fun c => { c with pllLocked := [], refQualified := true }
    let fb := clocked ready fun c => { c with refQualified := true, fallbackOk := true, fbBad := 1 }
    let fg := clocked ready fun c => { c with refQualified := true, fallbackOk := false, fbGood := 1 }
    let cold := clocked { ready with led := { ready.led with mounted := false } } fun c => { c with oscQualified := false, gap := true, reset := some .powerOn }
    let g : GateNode := { level := 3, index := 0, sub := 3, req := true }
    let gated := clocked ready fun c => { c with gates := [g] }
    let gport := clocked ready fun c => { c with gates := [{ level := 4, index := 23, sub := 0, req := true }] }
    (lost.clk.monitor = true ∧ lost.clk.refQualified = false ∧ lost.clk.gap = false ∧ lost.clk.aon = .fallback ∧ 0 ∉ lost.clk.switching ∧ 7 ≤ lost.clk.goodWindows) ∧
    (6 < 7) ∧ (mon.clk.monitor = true ∧ mon.clk.pwrgood = true ∧ mon.clk.refQualified = true ∧ mon.clk.reset = none) ∧
    (cold.clk.pwrgood = true ∧ cold.clk.oscQualified = false ∧ cold.clk.gap = true ∧ ledgerWritable cold = false) ∧
    (fb.clk.refQualified = true ∧ fb.clk.fallbackOk = true ∧ fb.clk.fbBad = 1) ∧ (fg.clk.fallbackOk = false ∧ fg.clk.fbGood = 1) ∧
    (0 ∈ sw.clk.switching ∧ 1 ∈ sw.clk.switching ∧ sw.clk.forced ≤ 65535) ∧
    (few.clk.reset = none ∧ few.clk.refQualified = true ∧ (31 : Fin 32).val ∉ few.clk.pllLocked ∧ pllStopped few 31 = false) ∧
    ((5 : Fin 32).val ∈ ready.clk.pllLocked ∧ (6 : Fin 32).val ∈ ready.clk.pllLocked ∧ ready.clk.spindle = .reference ∧ (31 : Fin 32).val = 8 + (23 : Fin 24).val) ∧
    (gateReq gated 3 0 (gateSub 3 3) = true ∧ gateWork gated 3 0 (gateSub 3 3) = false) ∧
    (gateReq gport 4 23 (gateSub 4 0) = true ∧ gateWork gport 4 23 (gateSub 4 0) = false) ∧
    (Sound ready ∧ gateReq ready 1 0 (gateSub 1 0) = false) := by
  and_intros <;> decide +kernel

/-- A device in start-up, with the steps given ended. -/
def starting (steps : List Nat) : State :=
  clocked State.reset fun c => { c with reset := none, stepDone := steps, pllLocked := List.range 32, perstN := true }

theorem wit_StartUpRunsInOrder :
    let none' := { ready with mgmt := { ready.mgmt with state := .restarting }, sec := { ready.sec with slotA := none, slotB := none } }
    let s8 := starting [1, 2, 3, 5, 6, 7]
    let s9 := starting [1, 2, 3, 5, 6, 7, 8]
    let s10 := starting [1, 2, 3, 4, 5, 6, 7, 8, 9]
    let s13 := starting [1, 2, 3, 4, 5, 6, 7, 8, 9, 10, 11, 12]
    let s14 := starting [1, 2, 3, 4, 5, 6, 7, 8, 9, 10, 11, 12, 13]
    let x : PciePartner := { lanes := 0xF0, rates := 31, flit := false }
    let rel := clocked { ready with led := { ready.led with marker := 0 } } fun c => { c with homeOwn := false, stepDone := List.range 15 }
    (mayEnd (starting [1, 2]) 3 [1, 2] = true ∧ (List.range 32).all (starting [1, 2]).clk.pllLocked.contains = true) ∧
    ((starting [1, 2, 3]).clk.reset = none ∧ (starting [1, 2, 3]).clk.perstN = true ∧ 3 ∈ (starting [1, 2, 3]).clk.stepDone ∧ mayEnd (starting [1, 2, 3]) 4 [3] = true ∧
      pcieWidthOf x.lanes = some (4, true) ∧ x.rates.getLsbD 5 = false ∧ 3 ∉ State.reset.clk.stepDone) ∧
    (mayEnd ready 14 [13] = false ∧ ready.pool.rebuilt = true ∧ ready.clk.reset = none) ∧
    (mayEnd (starting [1, 2, 3]) 5 [3] = true ∧ (starting [1, 2, 3]).mgmt.txn = none ∧ (starting [1, 2, 3]).mgmt.works = []) ∧
    ((starting [1, 2, 3, 5]).mgmt.state = .notReady ∧ mayEnd (starting [1, 2, 3, 5]) 6 [5] = true) ∧
    (booting (starting [1, 2, 3, 5, 6]) = true ∧ mayEnd (starting [1, 2, 3, 5, 6]) 7 [6] = true) ∧
    (booting s8 = true ∧ mayEnd s8 8 [7] = true) ∧ (booting s9 = true ∧ mayEnd s9 9 [8] = true) ∧
    (s10.clk.reset = none ∧ s10.mgmt.state = .notReady ∧ mayEnd s10 10 [4, 6, 9] = true ∧ ringEn s10 = false ∧ s10.dom.time = 0) ∧
    (none'.clk.reset = none ∧ none'.mgmt.state = .restarting ∧ slotVerifies none' none'.sec.active = false ∧ slotVerifies none' (nextSlot none') = false ∧
      slotVerifies none' (1 - nextSlot none') = false) ∧
    mayEnd s13 13 [12] = true ∧ mayEnd s14 14 [13] = true ∧ mayRelease rel = true ∧
    (Sound State.reset ∧ mayRelease State.reset = false ∧ mayEnd (starting [1]) 3 [1, 2] = false ∧ Sound (starting [1]) ∧ mayEnd State.reset 5 [3] = false ∧ mayEnd State.reset 7 [6] = false ∧
      mayEnd State.reset 8 [7] = false ∧ mayEnd State.reset 9 [8] = false ∧ State.reset.mgmt.state = .notReady ∧ mayEnd State.reset 10 [4, 6, 9] = false ∧
      mayEnd State.reset 13 [12] = false ∧ mayEnd State.reset 14 [13] = false) := by
  and_intros <;> decide +kernel

/-- A training set of a type: the lane, GEN_CAP, GEN_SEL, width, preset, step and status, as R30 lays them out, with its CRC-16. -/
def trainingSet (typ lane : Nat) (rest : List Byte) : List Byte :=
  let body := padTo 26 ([BitVec.ofNat 8 typ, BitVec.ofNat 8 lane] ++ rest)
  [0x3C, 0xA5, 0x5A, 0xC3] ++ body ++ leBytes 2 (crc16 body)

/-- Every lane of a link counts n sets, and has reached marker lock when n is not 0. -/
def lanesAt (n : Nat) : Vector LaneEq 4 := Vector.replicate 4 { count := n, locked := n != 0 }

/-- Every lane of a link counts n sets with the fields of one. -/
def lanesSeen (n : Nat) (ts : List Byte) : Vector LaneEq 4 := Vector.replicate 4 { count := n, locked := true, seen := tsFields ts }

theorem wit_TrainingAdvances :
    let disc := trainingSet 1 3 [7, 0, 15]
    let cfg := trainingSet 2 3 [7, 3, 15]
    let eq := trainingSet 3 3 [7, 3, 15, 0, 4, 1, 4]
    let rdy := trainingSet 4 3 [7, 3, 15]
    let detect := linked ready 0 fun x => { x with state := .detect }
    let d := linked ready 0 fun x => { x with state := .discovery, lanes := (lanesAt 1024).set 3 { count := 1023, locked := true } }
    let d2 := linked ready 0 fun x => { x with state := .discovery, lanes := ((lanesAt 0).set 0 { count := 1023, locked := true }).set 1 { count := 1024, locked := true } }
    let c := linked ready 0 fun x => { x with state := .config, laneMask := 15, lanes := (lanesSeen 16 cfg).set 3 { count := 15, seen := tsFields cfg } }
    let c0 := linked c 0 fun x => { x with genCap := 0 }
    let e := linked ready 0 fun x => { x with state := .eq, laneMask := 15 }
    let v := linked ready 0 fun x => { x with state := .verify, laneMask := 15, passed := true, lanes := (lanesSeen 16 rdy).set 3 { count := 15, seen := tsFields rdy } }
    let v16 := linked ready 0 fun x => { x with state := .verify, laneMask := 15, lanes := lanesAt 16 }
    let other := linked e 0 fun x => { x with row := 4, lanes := x.lanes.set 2 { count := 1, seen := tsFields (trainingSet 3 2 [1, 3, 15, 0, 4, 1, 4]) } }
    let keyed := v16.updPort 0 fun x => { x with enc := { x.enc with owner := some 7, tx0 := some { usable := true }, rx0 := some { usable := true } } }
    let r := linked v 0 fun x => { x with state := .retrain }
    (isOlk detect 0 = true ∧ (detect.ports[(0 : Fin 24)]).link.state = .detect ∧ (15 : BitVec 4) ≠ 0 ∧ 8 + (0 : Fin 24).val ∈ detect.clk.pllLocked ∧
      (detect.ports[(0 : Fin 24)]).link.waitKeys = false) ∧
    algTakes (begin detect) 0 = begin detect ∧ Sound ready ∧ Sound d ∧ Sound d2 ∧
    (tsGood disc 1 = true ∧ ((d.ports[(0 : Fin 24)]).link.lanes[(3 : Fin 4)]).count = 1023 ∧ ∀ i : Fin 4, i ≠ 3 → 1024 ≤ ((d.ports[(0 : Fin 24)]).link.lanes[i]).count) ∧
    (((d2.ports[(0 : Fin 24)]).link.lanes[(0 : Fin 4)]).count = 1023 ∧ 1024 ≤ ((d2.ports[(0 : Fin 24)]).link.lanes[(1 : Fin 4)]).count ∧
      ((d2.ports[(0 : Fin 24)]).link.lanes[(2 : Fin 4)]).locked = false ∧ widthMask 3 = 3) ∧ tsGood cfg 1 = false ∧
    ((d2.ports[(0 : Fin 24)]).link.state = .discovery ∧ tsGood disc 1 = true ∧ ∀ i : Fin 4, (3 : BitVec 4).getLsbD i.val = decide (i = 0 ∨ ((d2.ports[(0 : Fin 24)]).link.lanes[i]).locked = true)) ∧
    (tsGood cfg 2 = true ∧ tsByte cfg 5 = (3 : Fin 4).val ∧ ((c.ports[(0 : Fin 24)]).link.lanes[(3 : Fin 4)]).seen = tsFields cfg ∧
      tsDiffers (c.ports[(0 : Fin 24)]).link 3 cfg = false ∧ holdsKeys (c.ports[(0 : Fin 24)]).enc = false ∧
      tsByte cfg 8 % 16 = 15 ∧ tsByte cfg 7 ≠ 0 ∧ (sharedGens (c.ports[(0 : Fin 24)]).link.genCap (BitVec.ofNat 3 (tsByte cfg 6))).headD 0 = 3 ∧
      (sharedGens (c0.ports[(0 : Fin 24)]).link.genCap (BitVec.ofNat 3 (tsByte cfg 6))).headD 0 = 0) ∧
    ((e.ports[(0 : Fin 24)]).link.laneMask.getLsbD 3 = true ∧ tsGood eq 3 = true ∧ tsByte eq 5 = (3 : Fin 4).val ∧ tsByte eq 10 = 4 ∧ tsByte eq 11 % 64 = 1 ∧ tsDiffers (e.ports[(0 : Fin 24)]).link 3 eq = false) ∧
    (tsDiffers (other.ports[(0 : Fin 24)]).link 3 eq = true ∧ Sound other ∧ tsGood (trainingSet 3 3 [7]) 4 = false) ∧
    ((keyed.ports[(0 : Fin 24)]).link.state = .verify ∧ holdsKeys (keyed.ports[(0 : Fin 24)]).enc = true) ∧
    (lanesCounted (v16.ports[(0 : Fin 24)]).link 15 16 = true ∧ lanesCounted (v.ports[(0 : Fin 24)]).link 15 16 = false) ∧
    (tsGood rdy 4 = true ∧ tsByte rdy 5 = (3 : Fin 4).val ∧ ((v.ports[(0 : Fin 24)]).link.lanes[(3 : Fin 4)]).seen = tsFields rdy ∧
      tsDiffers (v.ports[(0 : Fin 24)]).link 3 rdy = false ∧ 15 ≤ ((v.ports[(0 : Fin 24)]).link.lanes[(3 : Fin 4)]).count ∧
      (∀ i : Fin 4, i ≠ 3 → 16 ≤ ((v.ports[(0 : Fin 24)]).link.lanes[i]).count) ∧ (r.ports[(0 : Fin 24)]).link.state = .retrain) ∧
    (tsGood (trainingSet 5 0 []) 5 = true ∧ tsByte (trainingSet 5 0 []) 5 = (0 : Fin 4).val) := by
  and_intros <;> decide +kernel

theorem wit_EqualisationKeepsTheTapsInRange :
    let y : LaneEq := { cm1 := -16, cp1 := -16 }
    (y.askedPresets ≤ 8 ∧ y.askedSteps ≤ 128 ∧ ({ askedPresets := 8, askedSteps := 128 } : LaneEq).ownDone = false) ∧
    (-16 ≤ y.cm1 ∧ y.cm1 ≤ 0 ∧ -24 ≤ y.cp1 ∧ y.cp1 ≤ 0 ∧ 0 ≤ y.cm2 ∧ y.cm2 ≤ 8 ∧ 32 ≤ 64 - y.cm2 + y.cm1 + y.cp1 ∧ y.presetReqs < 8 ∧ y.stepReqs < 128 ∧ y.cm1 < 0) ∧
    bits 0b100000 5 4 ≠ 0 ∧ (9 < 10 ∨ 7 < 10 ∧ 2 ≠ 3) ∧ 9 ≤ 9 := by decide +kernel

theorem wit_TrainingFailsAndLinksGoDown :
    let at' := fun (x : LinkState) => linked ready 0 fun l => { l with state := x, partnerCap := 7 }
    let w : Work := { op := 0x0302, arg0 := 0 }
    let cal := linked ready 0 fun x => { x with state := .maint, calRunning := true }
    let calW := { cal with mgmt := { cal.mgmt with works := [w] } }
    let drain := { ready with mgmt := { ready.mgmt with works := [{ op := 0x0301, arg0 := 0 }] } }
    ((at' .discovery).ports[(0 : Fin 24)]).link.state = .discovery ∧ ((at' .config).ports[(0 : Fin 24)]).link.state = .config ∧
    (let x := ((at' .eq).ports[(0 : Fin 24)]).link
     (sharedGens (dropGen x.genCap x.gen) (dropGen x.partnerCap x.gen)).filter (· < x.gen) = 2 :: [1]) ∧
    (let x := ((linked (at' .verify) 0 fun l => { l with gen := 1 }).ports[(0 : Fin 24)]).link
     (sharedGens (dropGen x.genCap x.gen) (dropGen x.partnerCap x.gen)).filter (· < x.gen) = []) ∧
    ((at' .retrain).ports[(0 : Fin 24)]).link.state = .retrain ∧ Sound (at' .eq) ∧ Sound (at' .detect) ∧ (isOlk ready 0 = true ∧ (ready.ports[(0 : Fin 24)]).link.state = .active) ∧
    (isOlk ready 2 = false ∧ (ready.ports[(2 : Fin 24)]).cxl.up = true) ∧ Sound (at' .maint) ∧ isOlk (at' .maint) 0 = true ∧
    (maintDrains drain 0 = true ∧ portDrained drain 0 = true ∧ (drain.ports[(0 : Fin 24)]).link.state ≠ .retrain) ∧ maintDrains ready 0 = false ∧ Sound ready ∧
    (Sound cal ∧ (cal.ports[(0 : Fin 24)]).link.calRunning = true ∧ ∀ w ∈ cal.mgmt.works, w.op ≠ 0x0302 ∧ w.op ≠ 0x0301) ∧
    (Sound calW ∧ (calW.ports[(0 : Fin 24)]).link.calRunning = true ∧ calW.mgmt.works = [w] ∧ w.op = 0x0302 ∧ w.arg0 = (0 : Fin 24).val ∧ w.arg1 = 0 ∧ w.responded = false) := by
  and_intros <;> decide +kernel

/-- A port's transmit and receive sides changed. -/
def wired (s : State) (p : Fin 24) (f : Port → Port) : State := s.updPort p f

theorem wit_CreditsAndAcknowledgements :
    let initP : List Byte := padTo 18 ([0xF1, 0] ++ leBytes 2 0 ++ leBytes 2 0 ++ leBytes 2 16 ++ leBytes 2 0 ++ leBytes 2 40)
    let initM : List Byte := padTo 18 ([0xF1, 0] ++ leBytes 2 0 ++ leBytes 2 0 ++ leBytes 2 0 ++ leBytes 2 0 ++ leBytes 2 0 ++ leBytes 2 40)
    let few : List Byte := padTo 18 ([0xF1, 0] ++ leBytes 2 0 ++ leBytes 2 0 ++ leBytes 2 15 ++ leBytes 2 0 ++ leBytes 2 40)
    let wrong : List Byte := padTo 18 ([0xF2, 0] ++ leBytes 2 1)
    let audit : List Byte := padTo 18 ([0xF3, 3])
    let bad : List Byte := padTo 18 ([0xF3, 3] ++ leBytes 4 1)
    let seen := wired ready 0 fun x => { x with rx := { x.rx with initSeen := true } }
    let due := wired seen 0 fun x => { x with rx := { x.rx with due := { req := 1 } } }
    let torn := wired ready 0 fun x => { x with rx := { x.rx with shRcvd := { rsp := 1 } } }
    let f : TxFlit := { seq := 1023 }
    let sent := wired ready 0 fun x => { x with tx := { x.tx with replay := [f], replays := 3 } }
    let owed := wired ready 0 fun x => { x with rx := { x.rx with unacked := 1 } }
    let late := wired seen 0 fun x => { x with tx := { x.tx with flits := 4096 } }
    let full := wired late 0 fun x => { x with tx := { x.tx with replay := List.replicate 512 f } }
    let four := wired sent 0 fun x => { x with tx := { x.tx with replays := 4 } }
    (Sound ready ∧ isOlk ready 0 = true ∧ portActive ready 0 = true ∧ (ready.ports[(0 : Fin 24)]).rx.initSeen = false ∧ (ready.ports[(0 : Fin 24)]).tx.snpQ = [] ∧
      isMem ready 0 = false ∧ 16 ≤ (slotCounts initP).snp ∧ 40 ≤ (slotCounts initP).cmp) ∧
    (isOlk ready 1 = true ∧ portActive ready 1 = true ∧ isMem ready 1 = true ∧ (ready.ports[(1 : Fin 24)]).rx.initSeen = false ∧ 40 ≤ (slotCounts initM).mem) ∧
    ((slotCounts few).snp < 16 ∧ (seen.ports[(0 : Fin 24)]).rx.initSeen = true ∧ portActive seen 0 = true) ∧
    (sendOnly ready 0 (slotCounts initP) = slotCounts initP ∧ sendOnly ready 0 (slotCounts wrong) ≠ slotCounts wrong) ∧
    (leAt audit 1 1 ≤ 5 ∧ partnerSends ready 0 (leAt audit 1 1) = true ∧ partnerSends ready 0 2 = false ∧ auditHolds (ready.ports[(0 : Fin 24)]) 3 audit = true ∧
      auditHolds (ready.ports[(0 : Fin 24)]) 3 bad = false ∧ vcHolds ready 0 3 = true ∧ vcHolds torn 0 3 = false ∧ auditHolds (torn.ports[(0 : Fin 24)]) 3 bad = false) ∧
    (flowing due 0 = true ∧ replayRoom (due.ports[(0 : Fin 24)]) 1 = true ∧ (due.ports[(0 : Fin 24)]).link.draining = false ∧ (due.ports[(0 : Fin 24)]).rx.due ≠ {}) ∧
    (flowing seen 0 = true ∧ replayRoom (seen.ports[(0 : Fin 24)]) 2 = true ∧ (seen.ports[(0 : Fin 24)]).link.fromVerify = false ∧ (seen.ports[(0 : Fin 24)]).enc.on = false) ∧
    ((sent.ports[(0 : Fin 24)]).tx.replay = f :: [] ∧ f.seq < 1024 ∧ (sent.ports[(0 : Fin 24)]).tx.replays < 4 ∧ isOlk sent 0 = true ∧ portActive sent 0 = true ∧
      Quiet (sent.ports[(0 : Fin 24)]) ∧ 4 ≤ (four.ports[(0 : Fin 24)]).tx.replays ∧ ((ackTo sent 0 (1023 % 1024)).ports[(0 : Fin 24)]).tx.replay = [f] ∧
      ((ackTo four 0 (1023 % 1024)).ports[(0 : Fin 24)]).tx.replays = 4) ∧ Quiet (ready.ports[(0 : Fin 24)]) ∧ Quiet (owed.ports[(0 : Fin 24)]) ∧
    (flowing late 0 = true ∧ 4096 ≤ (late.ports[(0 : Fin 24)]).tx.flits ∧ replayRoom (late.ports[(0 : Fin 24)]) 2 = true ∧ Quiet (late.ports[(0 : Fin 24)]) ∧
      (late.ports[(0 : Fin 24)]).rx.unacked = 0 ∧ (late.ports[(0 : Fin 24)]).rx.initSeen = true) ∧
    (flowing full 0 = true ∧ 4096 ≤ (full.ports[(0 : Fin 24)]).tx.flits ∧ replayRoom (full.ports[(0 : Fin 24)]) 1 = false ∧ Sound full) ∧
    (portActive owed 0 = true ∧ 0 < (owed.ports[(0 : Fin 24)]).rx.unacked) := by
  and_intros <;> decide +kernel

theorem wit_FlitsAreAcceptedInOrder :
    let g1 := wired (linked ready 0 fun x => { x with gen := 1 }) 0 fun x => { x with rx := { x.rx with scr := laneSeeds } }
    let flit := fun (n : Nat) (sqd : Bool) => encodeFlit 1 n sqd 0 false []
    let key : LinkKey := {}
    let enc := wired ready 0 fun x => { x with enc := { x.enc with on := true, rx0 := some key }, rx := { x.rx with runFlits := 8 } }
    let wire := fun (bs : List Byte) => (scrambleFlit 4 (g1.ports[(0 : Fin 24)]).rx.scr bs).1
    let ver := linked g1 0 fun x => { x with state := .verify, laneMask := 15 }
    let fin := linked ver 0 fun x => { x with verifyRun := 2 ^ 18 - 1 }
    let held := fun (bs : List Byte) => ((bs.drop 74).take 6, leAt bs 0 2)
    let mac := ([0xF6, 0] : List Byte) ++ padTo 16 (Config.macTag (enc.ports[(0 : Fin 24)]).enc.algInForce key.key (runIv key 0) 8 [])
    (isOlk g1 0 = true ∧ portActive g1 0 = true ∧ (g1.ports[(0 : Fin 24)]).rx.nakAt = none ∧ [0].length ≠ flitLen 1) ∧
    ((wire (flit 0 true)).length = flitLen 1 ∧ (unscramble (begin g1) 0 (wire (flit 0 true))).1 = flit 0 true ∧ Quiet (g1.ports[(0 : Fin 24)])) ∧
    ((ver.ports[(0 : Fin 24)]).link.state = .verify ∧ isOlk ver 0 = true ∧ goodFlit 1 (unscramble (begin ver) 0 (wire (flit 0 false))).1 = some (flit 0 false, 0) ∧
      goodFlit 1 (unscramble (begin ver) 0 (flit 0 false)).1 = none ∧ (ver.ports[(0 : Fin 24)]).link.passed = false ∧
      (fin.ports[(0 : Fin 24)]).link.verifyRun + 1 = 2 ^ 18 ∧ (fin.ports[(0 : Fin 24)]).link.verifyFixed + 0 = 0 ∧
      lanesCounted (fin.ports[(0 : Fin 24)]).link (fin.ports[(0 : Fin 24)]).link.laneMask 16 = false) ∧
    ((flit 0 true).length = flitLen 1 ∧ fecDecode 1 (flit 0 true) = some (flit 0 true, 0)) ∧
    ((held (flit 0 true)).1 = flitCrc 1 ((flit 0 true).take 74) ∧ bitOf (held (flit 0 true)).2 15 = false ∧ bitOf (held (flit 0 true)).2 10 = true ∧
      (held (flit 0 true)).2 % 1024 = (g1.ports[(0 : Fin 24)]).rx.eseq) ∧
    ((held (flit 1023 true)).2 % 1024 ≠ 0 ∧ (0 + 1024 - (held (flit 1023 true)).2 % 1024) % 1024 ≤ 512 ∧ 512 < (0 + 1024 - (held (flit 1 true)).2 % 1024) % 1024) ∧
    (bitOf (held (flit 0 false)).2 10 = false ∧ (held (flit 0 false)).1 = flitCrc 1 ((flit 0 false).take 74)) ∧
    ((g1.ports[(0 : Fin 24)]).enc.on = false ∧ (g1.ports[(0 : Fin 24)]).rx.owed = 0 ∧ (g1.ports[(0 : Fin 24)]).rx.unacked < 31) ∧
    (isOlk enc 0 = true ∧ portActive enc 0 = true ∧ (enc.ports[(0 : Fin 24)]).enc.on = true ∧
      keyOf (enc.ports[(0 : Fin 24)]).enc true (enc.ports[(0 : Fin 24)]).rx.phase = some key ∧ (enc.ports[(0 : Fin 24)]).rx.runFlits = 8) ∧
    bitOf (leAt mac 1 1) 0 = (enc.ports[(0 : Fin 24)]).rx.phase := by
  and_intros <;> first | decide +kernel | rfl

theorem wit_PortsBind :
    let one : List Byte := padTo 18 [0xF4, 1, 5, 0, 0, 0, 0, 0, 0, 0, 1, 0, 0, 0, 0, 1, 0xFF, 0x0F]
    let none' : List Byte := padTo 18 [0xF4, 0]
    let nine : List Byte := padTo 18 [0xF4, 9]
    let idle := ready.updBind 5 fun b => { b with status := .idle }
    let seen := wired ready 1 fun x => { x with rx := { x.rx with bindSeen := true } }
    (isOlk idle 0 = true ∧ portActive idle 0 = true ∧ isMem idle 0 = false ∧ (idle.ports[(0 : Fin 24)]).rx.bindSeen = false ∧ 0 < leAt one 1 1 ∧ leAt one 1 1 ≤ 8 ∧
      bindReason idle 0 (leAt one 2 1) (bitOf (leAt one 10 1) 0) false = 0) ∧
    (leAt none' 1 1 = 0 ∧ 8 < leAt nine 1 1 ∧ isMem ready 1 = true) ∧
    (bindPort ready 6 ≠ some (0 : Fin 24) ∧ (ready.bind 6).status = .active ∧ bindPort ready 7 ≠ some (0 : Fin 24) ∧ (ready.bind 7).status ≠ .active) ∧
    (bindPort ready 5 = some (0 : Fin 24) ∧ (ready.bind 5).status ≠ .disowning ∧ bindRole ready 5 = 1 ∧ bindRole ready 70 ≠ 1) ∧
    (isOlk ready 1 = true ∧ portActive ready 1 = true ∧ (ready.ports[(1 : Fin 24)]).rx.bindSeen = false ∧ (seen.ports[(1 : Fin 24)]).rx.bindSeen = true ∧ portActive seen 1 = true) := by
  and_intros <;> decide +kernel

/-- The ready device with line 0 in X for an agent, in a way of the directory cache. -/
def owned (a : Nat) : State :=
  ready.updSlc 0 fun x => { x with dcache := [{ set := cidx 0, way := 0, tag := dirTag 0, ssetHi := ssetHi 0, v := oneHot a, state := .X }] }

/-- The device with one transaction in slice 0. -/
def opening (s : State) (t : Txn) : State := s.updSlc 0 fun x => { x with txns := [t] }

theorem wit_DeviceCommits :
    let tx := fun (p : CommitPhase) => ({ id := 9, staged := [⟨keyWmWb, 0, 5⟩], phase := p } : CfgTxn)
    let f : FollowUp := { txn := 3 }
    let foll := { ready with mgmt := { ready.mgmt with followUps := [f] } }
    let wk := fun (op : Nat) (a0 : Nat) => { ready with mgmt := { ready.mgmt with works := [{ op := op, arg0 := a0 }] } }
    (Sound (within ready (tx .draining)) ∧ (within ready (tx .draining)).mgmt.txn = some (tx .draining) ∧ drained (within ready (tx .draining)) (tx .draining).staged = true) ∧
    ((within ready (tx .armed)).mgmt.txn = some (tx .armed) ∧ (tx .armed).phase = .armed ∧ windowDue ready = false ∧ ready.clk.reset = none) ∧
    (∀ e ∈ (tx .armed).staged, e.key ≠ keyPersonality) ∧
    (Sound (within ready (tx .open)) ∧ (tx .open).phase = .open ∧ workRuns (within ready (tx .open)) [0x0203] = false ∧ (within ready (tx .open)).mgmt.state = .running) ∧
    (Sound foll ∧ foll.mgmt.followUps.find? (followUpEnded foll) = some f) ∧
    (Sound (wk 0x0410 0) ∧ continues 0x0410 = true ∧ (wk 0x0410 0).mgmt.works = { op := 0x0410 } :: [] ∧ ({ op := 0x0410 } : Work).via = .primary) ∧
    ((wk 0x0301 23).mgmt.works = { op := 0x0301, arg0 := 23 } :: [] ∧ ({ op := 0x0301, arg0 := 23 } : Work).arg1 = 0 ∧ Sound (wk 0x0302 0)) ∧
    (∀ w ∈ ready.mgmt.works, w.via ≠ .primary) := by
  and_intros <;> decide +kernel

theorem wit_DomainCommits :
    let body : List Byte := leBytes 4 keyIt ++ leBytes 2 1 ++ leBytes 2 1 ++ leBytes 1 1
    let wrong : List Byte := leBytes 4 keyWinSize ++ leBytes 2 1 ++ leBytes 2 4 ++ leBytes 4 0
    let whole := fun (b : List Byte) => b ++ leBytes 8 (crc64 b)
    let prep := fun (last : Nat) (image : List Byte) =>
      ({ dst := 1, src := 0, payload := leBytes 2 7 ++ leBytes 2 0 ++ leBytes 2 image.length ++ leBytes 1 last ++ leBytes 1 0 ++ image } : RingFrame)
    let ok := prep 1 (whole body)
    let prepared := { secondary with dom := { secondary.dom with prepared := some (7, [⟨keyIt, 1, 1⟩]) } }
    let part := { secondary with dom := { secondary.dom with image := body, imageId := 7 } }
    let frag := fun (k : Nat) (rest : List Byte) =>
      ({ dst := 1, src := 0, payload := leBytes 2 7 ++ leBytes 2 k ++ leBytes 2 0 ++ leBytes 1 1 ++ leBytes 1 0 ++ rest } : RingFrame)
    let eight := { secondary with dom := { secondary.dom with image := (whole body).take 8, imageId := 7 } }
    let decide' := fun (d : Nat) => ({ dst := 1, src := 0, payload := leBytes 2 7 ++ leBytes 1 d ++ leBytes 5 0 ++ leBytes 8 5000 } : RingFrame)
    let again := { secondary with dom := { secondary.dom with decided := some (7, true) } }
    let v : Vote := { id := 7, txn := 9 }
    let t : CfgTxn := { id := 9, domain := true, phase := .ring }
    let two := within { primary with dom := { primary.dom with vote := some v } } t
    let three := within { primary with dom := { primary.dom with n := 3, vote := some v } } t
    let vote := fun (d : Nat) => ({ dst := 0, src := 1, payload := leBytes 2 7 ++ leBytes 1 d ++ leBytes 2 1 ++ leBytes 4 0 ++ leBytes 2 0 } : RingFrame)
    let yes : Vote := { v with yes := v.yes ++ [1] }
    let acked := fun (n : Nat) => { primary with dom := { primary.dom with n := n }, led := { primary.led with commits := [(7, true, [])] } }
    let late : Vote := { v with decided := some true }
    let waits := { primary with dom := { primary.dom with vote := some late } }
    (Sound secondary ∧ Arrives 0x20 (prep 0 body) secondary ∧ Arrives 0x20 ok secondary ∧ secondary.dom.index = some ok.dst ∧ ok.dst ≠ 0xFF ∧
      isPrimary secondary = false ∧ secondary.dom.prepared = none ∧ secondary.dom.imageWhole = false ∧ secondary.mgmt.state = .running ∧ commitRuns secondary = false) ∧
    (leAt ok.payload 2 2 = 0 ∧ bitOf (leAt ok.payload 6 1) 0 = true ∧ bitOf (leAt (prep 0 body).payload 6 1) 0 = false ∧ ok.payload.drop 8 = whole body) ∧
    (leAt (whole body) body.length 8 = crc64 body ∧ validate secondary (imageEntries body.length body) = none ∧
      (validate secondary (imageEntries wrong.length wrong)).isSome = true) ∧
    (Sound eight ∧ Arrives 0x20 (frag 1 ((whole body).drop 8)) eight ∧ 0 < leAt (frag 1 []).payload 2 2 ∧ leAt (frag 1 []).payload 2 2 * 8 = eight.dom.image.length ∧
      leAt (frag 1 []).payload 0 2 = eight.dom.imageId ∧ eight.dom.image ++ (frag 1 ((whole body).drop 8)).payload.drop 8 = whole body ∧
      leAt (frag 2 []).payload 2 2 * 8 ≠ eight.dom.image.length ∧ Arrives 0x20 (frag 2 []) eight) ∧
    (Sound prepared ∧ Arrives 0x20 ok prepared ∧ (Sound part ∧ part.dom.image ≠ [] ∧ part.dom.imageWhole = false)) ∧
    (Arrives 0x22 (decide' 0) prepared ∧ prepared.dom.index = some (decide' 0).dst ∧ prepared.dom.prepared = some (leAt (decide' 0).payload 0 2, [⟨keyIt, 1, 1⟩]) ∧
      prepared.dom.deciding = none ∧ leAt (decide' 0).payload 2 1 = 0 ∧ leAt (decide' 1).payload 2 1 ≠ 0 ∧ prepared.mgmt.txn = none ∧ prepared.dom.imageWhole = false) ∧
    (Sound again ∧ Arrives 0x22 (decide' 0) again ∧ again.dom.prepared = none ∧ again.dom.decided = some (7, true) ∧ secondary.dom.decided = none) ∧
    (Arrives 0x21 (vote 0) two ∧ two.dom.index = some (vote 0).dst ∧ two.dom.vote = some v ∧ two.mgmt.txn = some t ∧ Sound three ∧ Arrives 0x21 (vote 0) three) ∧
    (((secondaries two).all fun d => yes.yes.contains d || yes.no.any (·.1 == d)) = true ∧ ((secondaries three).all fun d => yes.yes.contains d || yes.no.any (·.1 == d)) = false ∧
      leAt (vote 1).payload 2 1 ≠ 0 ∧ leAt (vote 0).payload 2 1 = 0) ∧
    (Sound (acked 2) ∧ onRing (acked 2) = true ∧ isPrimary (acked 2) = true ∧ ringCarries (acked 2) = true ∧ Arrives 0x23 (vote 0) (acked 2) ∧
      (secondaries (acked 2)).all ([] ++ [1] : List Nat).contains = true ∧ (secondaries (acked 3)).all ([] ++ [1] : List Nat).contains = false ∧ (acked 2).dom.vote = none) ∧
    (Sound waits ∧ waits.dom.vote = some late ∧ late.decided = some true ∧ late.completed = false ∧ (secondaries waits).all late.acks.contains = false) := by
  and_intros <;> decide +kernel

theorem wit_AgentMessagesArriveAndAreTaken :
    let fed := wired ready 0 fun x => { x with rx := { x.rx with pools := { req := 64, wb := 64, rsp := 64 }, position := 4 } }
    let h : Hdr := { src := 5, dest := 0, tag := 1, laddr := 0 }
    let m : RxMsg := { src := 5, tag := 1, position := 3 }
    let queued := wired fed 0 fun x => { x with reqQ := [m] }
    let poor := wired fed 0 fun x => { x with rx := { x.rx with pools := {} } }
    let stale := wired fed 0 fun x => { x with epoch := 1 }
    (opFromAgent .rdShared = true ∧ opFromAgent .snpInv = false ∧ ready.prot.upsets = []) ∧
    (Sound ready ∧ personality ready 2 ≠ .peerOlk ∧ personality queued 0 = .peerOlk ∧ (queued.ports[(0 : Fin 24)]).link.state = .active) ∧
    (rxHeld (queued.ports[(0 : Fin 24)]).rx 0 + opSlots .rdShared ≤ vcGet (queued.ports[(0 : Fin 24)]).rx.pools 0 ∧ opFromAgent .rdShared = true ∧
      fieldsOk .rdShared h 0 = true ∧ activeOn queued h.src 0 = true ∧ senderOk queued .rdShared h.src = true ∧ opVc .rdShared = 0 ∧
      queueHead queued 0 (sliceOf h.laddr) 0 = some m ∧ m.position ≠ (queued.ports[(0 : Fin 24)]).rx.position) ∧
    ¬ (rxHeld (poor.ports[(0 : Fin 24)]).rx 0 + opSlots .rdShared ≤ vcGet (poor.ports[(0 : Fin 24)]).rx.pools 0) ∧
    (fieldsOk .rdShared { h with aop := 1 } 0 = false ∧ activeOn fed 7 0 = false ∧ senderOk fed .rdShared 70 = false ∧ activeOn fed 70 0 = true ∧
      bindRole fed 70 = 2 ∧ opVc .wbDirty ≠ 0 ∧ (1 : Nat) ≠ ownIndex fed) ∧
    (linkUp fed 0 = true ∧ linkUp ready 5 = false ∧ inFresh stale 0 m = false ∧ queueHead ready 0 0 0 = none) := by
  and_intros <;> decide +kernel

theorem wit_TheHomeTakesAndOpensRequests :
    let m : RxMsg := { src := 5, dest := 0, laddr := 0 }
    let serves := { ready with clk := { ready.clk with homeOwn := true } }
    let small := { serves with mgmt := { serves.mgmt with cfg := ⟨keyTxnCap, 1, 0⟩ :: serves.mgmt.cfg } }
    let held := { serves with cons := { serves.cons with contained := true } }
    let behind := opening serves { msg := { laddr := 0 }, status := .opened }
    let t : Txn := { msg := m, port := some 0, part := 1 }
    let win := { serves with mgmt := { serves.mgmt with cfg := ⟨keyFlags, 1, 3⟩ :: serves.mgmt.cfg } }
    let last := (2 ^ 30 - 64) / 64
    State.reset.clk.homeOwn = false ∧ (small.clk.homeOwn = true ∧ entryFree small 0 (partOf small 0) false = false) ∧
    (held.clk.homeOwn = true ∧ entryFree held 0 (partOf held 0) false = true ∧ held.cons.contained = true) ∧
    (entryFree behind 0 (partOf behind 0) false = true ∧ behind.cons.contained = false ∧ lineBusy (behind.slc 0) m.laddr = true) ∧
    (t.internal = false ∧ mapCheck serves 5 1 0 = some 4 ∧ mapCheck serves 5 0 (2 ^ 30 / 64) = some 4 ∧ mapCheck serves 200 0 0 = some 2 ∧ mapCheck serves 5 0 0 = none) ∧
    (mapCheck win 5 0 last = none ∧ counterWindow win last = some 65472 ∧ counterWindow win ((2 ^ 30 - 65536) / 64) = some 0 ∧
      counterWindow win ((2 ^ 30 - 65536) / 64 - 1) = none) ∧
    (windowOf serves (0 * 64) = some 1 ∧ (homeOf serves 0).1 = ownIndex serves ∧ windowOf serves (2 ^ 30) = none ∧ t.port = some 0 ∧ t.kind = .req .rdShared) := by
  and_intros <;> decide +kernel

theorem wit_TheHomeClosesTransactions :
    let n : Snoop := { agent := 6, answered := true }
    let t : Txn := { msg := { src := 5 }, port := some 0, part := 1, snoops := [n], grant := some .dataE, read := .value 9 false }
    let wb : Txn := { pool := .writeBack, kind := .writeBack, msg := { op := .wbDirty, src := 5, data := 3 }, port := some 0, part := 1 }
    let guard := (owned 5).updSlc 0 fun x => { x with dcache := x.dcache.map fun w => { w with guard := true } }
    let atomic : Txn := { t with kind := .req .atomic, read := .value 9 true }
    (n ∈ t.snoops ∧ n.keepsS = false ∧ n.agent < 64 ∧ n.agent ≠ t.msg.src ∧ t.port.isSome = true ∧ t.msg.src < 64 ∧ t.grant = some .dataE ∧ t.staleRole = false ∧
      flowOp t = .rdShared ∧ flowOp { t with kind := .req .wrFull } = .wrFull) ∧
    (({ t with kind := .req .wrPart, msg := { t.msg with be := 1 } } : Txn).msg.be ≠ BitVec.allOnes 64 ∧ (txnValue atomic).2 = true ∧ (txnValue t).2 = false ∧
      t.snoopData = none ∧ t.read = .value 9 false) ∧
    (ready.disown = 0 ∧ (dirOf ready 0 wb.msg.laddr).state ≠ .X ∧ wb.port = some 0) ∧
    ((owned 5).disown = 0 ∧ (dirOf (owned 5) 0 0).state = .X ∧ (dirOf (owned 5) 0 0).v = oneHot 5 ∧
      (placeData (owned 5) 0 0 3 false 1 (attrNt 0) true).isOk = true ∧ (wbOwned (owned 5) 0 wb).isOk = true) ∧
    ((dirOf guard 0 0).guard = true ∧ (dirOf (owned 5) 0 0).v &&& oneHot 6 = 0 ∧ (dirOf (owned 5) 0 0).guard = false ∧ (dirOf (owned 5) 0 0).v &&& oneHot 5 ≠ 0 ∧
      openOn ((owned 5).slc 0) 0 = none ∧ (dcFind ((owned 5).slc 0) 0).isSome = true) ∧
    (let o : Txn := { t with status := .opened, snoops := [{ agent := 5 }] }
     openOn ((opening (owned 5) o).slc 0) 0 = some o ∧ (snoopTo o 5).isSome = true) ∧
    (((ready.slc 0).txns.all fun t => !(t.msg.laddr == 0 && t.snoops.any fun n => n.agent == 5 && n.tag == 1 && !n.answered && !n.wbPending)) = true) ∧
    (({ t with status := .closing } : Txn).cmpsOut = 0 ∧ ({ t with status := .closing } : Txn).snoops.all (·.answered) = true) := by
  and_intros <;> decide +kernel

theorem wit_CompletionsTimeoutsAndEpochs :
    let m : OutMsg := { op := .cmpErr, dest := 5, tag := 1, aop := 4 }
    let up := wired ready 0 fun x => { x with rx := { x.rx with initSeen := true }, tx := { x.tx with avail := { cmp := 40 }, cmpQ := [m] } }
    let dry := wired up 0 fun x => { x with tx := { x.tx with avail := {} } }
    let stale := wired up 0 fun x => { x with epoch := 255 }
    let t : Txn := { msg := { laddr := 0 }, status := .opened, snoops := [{ agent := 6 }] }
    let held := opening { ready with cons := { ready.cons with contained := true } } t
    let adv := ready.updBind 5 fun b => { b with epoch := 255, epochHeld := true }
    let blocked := wired adv 0 fun x => { x with reqQ := [{ src := 5, epochs := { port := 0, agent := 0 } }] }
    let padv := wired ready 0 fun x => { x with epochHeld := true, epoch := 255 }
    (Sound ready ∧ ready.prot.upsets = [] ∧ (ready.ports[(0 : Fin 24)]).tx.cmpQ = []) ∧ Quiet (up.ports[(0 : Fin 24)]) ∧
    ((up.ports[(0 : Fin 24)]).link.fromVerify = false ∧ (up.ports[(0 : Fin 24)]).enc.on = false ∧ (up.ports[(0 : Fin 24)]).rx.unacked = 0 ∧
      (up.ports[(0 : Fin 24)]).tx.idleRun + 3 ≤ 2047 ∧ opSlots m.op ≤ slotsPerFlit (up.ports[(0 : Fin 24)]).link.gen) ∧ (Sound dry ∧ (dry.ports[(0 : Fin 24)]).tx.cmpQ = m :: [] ∧ outFresh dry 0 m = true ∧ canPlace dry 0 m.op = false) ∧
    ((up.ports[(0 : Fin 24)]).tx.cmpQ = m :: [] ∧ outFresh up 0 m = true ∧ canPlace up 0 m.op = true ∧ m.credit = false ∧ m.owner = none ∧ isOlk up 0 = true ∧
      histClass m.reqOp = none ∧ flowing up 0 = true) ∧
    (outFresh stale 0 m = false ∧ (∀ t ∈ (ready.slc 0).txns, t.msg.laddr = 0 → snoopTo t 6 = none)) ∧
    (held.cons.contained = true ∧ (snoopTo t 6).isSome = true) ∧
    (Sound adv ∧ (adv.bind (5 : Fin 256)).epochHeld = true ∧ epochUsed adv (.agent 5) (((adv.bind (5 : Fin 256)).epoch + 1) % 256) = false ∧
      epochUsed blocked (.agent 5) (((blocked.bind (5 : Fin 256)).epoch + 1) % 256) = true ∧ Sound blocked ∧ (ready.bind (5 : Fin 256)).epochHeld = false) ∧
    (Sound padv ∧ (padv.ports[(0 : Fin 24)]).epochHeld = true ∧ epochUsed padv (.port 0) 0 = false ∧ (ready.ports[(0 : Fin 24)]).epochHeld = false) := by
  and_intros <;> decide +kernel

theorem wit_CxlMessagesAreTranslated :
    let fed := wired ready 2 fun x => { x with cxl := { x.cxl with
      m2sReq := { pool := 8, avail := 8 }, m2sRwd := { pool := 8, avail := 8 }, m2sBiRsp := { pool := 8, avail := 8 }, layout := some [(1, 0, 2 ^ 30)], decoders := x.cxl.decoders.set 0 { base := 2 ^ 30, size := 2 ^ 30, committed := true }, wbOut := [(1, 3)] } }
    let c := (fed.ports[(2 : Fin 24)]).cxl
    let keyed := wired fed 2 fun x => { x with cxl := { x.cxl with ideKeys := [(1, 1, 9)] } }
    let loose := wired fed 2 fun x => { x with cxl := { x.cxl with bound := none } }
    let full := wired fed 2 fun x => { x with cxl := { x.cxl with tagMap := List.replicate 4096 (0, 0) } }
    (Sound ready ∧ personality ready 0 ≠ .peerCxl3 ∧ personality ready 0 ≠ .peerCxl2) ∧
    (personality ready 2 = .peerCxl3 ∧ (ready.ports[(2 : Fin 24)]).cxl.up = true ∧ personality ready 4 = .peerCxl2 ∧ (ready.ports[(4 : Fin 24)]).cxl.up = true) ∧
    (ideOn c = false ∧ ideOn (keyed.ports[(2 : Fin 24)]).cxl = true ∧ ({ mac := false } : CxlMsg).mac = false ∧ ({ other := true } : CxlMsg).other = true ∧
      ({ nt := true, metaValue := 2 } : CxlMsg).nt = true) ∧
    (c.bound ≠ none ∧ (loose.ports[(2 : Fin 24)]).cxl.bound = none ∧ (loose.ports[(2 : Fin 24)]).cxl.tagMap.length < 4096 ∧ (loose.ports[(2 : Fin 24)]).cxl.m2sRwd.avail ≠ 0) ∧
    (0 < c.m2sReq.avail ∧ c.tagMap.length < 4096 ∧ 4096 ≤ (full.ports[(2 : Fin 24)]).cxl.tagMap.length ∧ (ready.ports[(2 : Fin 24)]).cxl.m2sReq.avail = 0 ∧
      (ready.ports[(2 : Fin 24)]).cxl.m2sRwd.avail = 0 ∧ cxlSpend (ready.ports[(2 : Fin 24)]).cxl 0 = none) ∧
    ((cxlSpend c 0).isSome = true ∧ c.bound = some 6 ∧ fabricOfHpa c (2 ^ 30) = some 0 ∧ fabricOfHpa c (2 ^ 31 - 64) = some (2 ^ 30 - 64) ∧ fabricOfHpa c (2 ^ 31) = none ∧
      (ready.ports[(4 : Fin 24)]).cxl.bound = none) ∧
    (isOlk fed 2 = false ∧ cxlHolds c.m2sReq = true ∧ cxlHolds c.m2sRwd = true ∧ cxlHolds c.m2sBiRsp = true ∧ c.m2sBiRsp.avail ≠ 0 ∧ activeOn fed 6 2 = true) ∧
    (let m : CxlMsg := { addr := 2 ^ 30 + 64, snpType := 1 }
     c.wbOut.any (fun e => e.1 == biLine c m) = true) := by
  and_intros <;> decide +kernel

/-- The ready device with fabric extent 0 on local extent 0 of port 1. -/
def mapped (st : ExtState) : State :=
  { ready with pool := { ready.pool with fxs := [{ fx := 0, bx := 0, state := st, part := 1 }], recs := [{ bx := 0, fx := 0, part := 1 }] } }

theorem wit_MemoryPortsSendAndAnswer :
    let r : MemReq := { kind := 0, maddr := 7 }
    let w : MemReq := { kind := 1, maddr := 7 }
    let sends := wired ready 1 fun x => { x with rx := { x.rx with initSeen := true, bindSeen := true }, tx := { x.tx with avail := { mem := 40 } }, mem := { x.mem with queue := [r] } }
    let bound := wired ready 1 fun x => { x with rx := { x.rx with bindSeen := true } }
    let exp := wired ready 3 fun x => { x with mem := { x.mem with desc := some { mode := 1, capGiB := 16 }, taken := true }, cxl := { x.cxl with m2sReq := { avail := 1 } } }
    let keyed := wired exp 3 fun x => { x with cxl := { x.cxl with ideKeys := [(1, 1, 9)] } }
    let waits := wired ready 1 fun x => { x with memQ := [{ tag := 1 }] }
    let out := wired ready 1 fun x => { x with mem := { x.mem with outstanding := [{ tag := 0, req := r }, { tag := 1, req := w }] } }
    let clear := wired ready 1 fun x => { x with mem := { x.mem with desc := some { mode := 0, capGiB := 16 } } }
    let away := wired ready 1 fun x => { x with mem := { x.mem with away := true } }
    let e : WbEntry := { id := 4, targets := [{ port := 1, maddr := 0 }, { port := 3, maddr := 0 }] }
    let buf := ready.updSlc 0 fun x => { x with wbuf := [e] }
    let lost := { mapped .allocated with pool := { (mapped .allocated).pool with degraded := [(0, 0)] } }
    let job := { lost with pool := { lost.pool with jobs := [{ fx := 0, copy := 0, newBx := 1 }] } }
    (Sound ready ∧ ready.prot.upsets = [] ∧ memIssues ready 0 = false ∧ memIssues ready 1 = false ∧ memIssues bound 1 = true ∧ isOlk bound 1 = true ∧
      (bound.ports[(1 : Fin 24)]).mem.queue = [] ∧ (bound.ports[(1 : Fin 24)]).tx.packed = []) ∧
    (memIssues exp 3 = true ∧ isOlk exp 3 = false ∧ 0 < (exp.ports[(3 : Fin 24)]).cxl.m2sReq.avail ∧ ideOn (keyed.ports[(3 : Fin 24)]).cxl = true ∧ isMem keyed 3 = true ∧
      (keyed.ports[(3 : Fin 24)]).cxl.up = true ∧ ideOn (exp.ports[(3 : Fin 24)]).cxl = false ∧ personality exp 3 = .memCxl ∧ transparent exp 3 = false) ∧
    (∃ q ∈ (waits.ports[(1 : Fin 24)]).memQ, q.tag = 1) ∧
    (memIssues sends 1 = true ∧ (sends.ports[(1 : Fin 24)]).rx.initSeen = true ∧ opSlots (reqOp r) ≤ (sends.ports[(1 : Fin 24)]).tx.avail.mem ∧
      replayRoom (sends.ports[(1 : Fin 24)]) (opSlots (reqOp r)) = true ∧ memPlaceable sends 1 r = true) ∧
    ((out.ports[(1 : Fin 24)]).mem.outstanding.length < 4096 ∧ freeMemTag (out.ports[(1 : Fin 24)]).mem = 2 ∧ isMem out 1 = true) ∧
    (∀ o ∈ (out.ports[(1 : Fin 24)]).mem.outstanding, o.tag = 1 → o.req.kind ≠ 0 ∨ o.req.maddr ≠ 7) ∧
    (∀ o ∈ (out.ports[(1 : Fin 24)]).mem.outstanding, o.tag = 0 → o.req.kind = 0 ∨ o.req.maddr ≠ 7) ∧
    (transparent ready 1 = false ∧ transparent clear 1 = true ∧ BitVec.getLsbD (0x10 : BitVec 8) 4 = true) ∧
    ((buf.slc 0).wbuf.find? (·.id == 4) = some e ∧ (e.targets.modify 1 fun t => { t with acked := true }).all (·.acked) = false) ∧
    (((e.targets.modify 0 fun t => { t with acked := true }).modify 1 fun t => { t with acked := true }).all (·.acked) = true) ∧
    ((ready.ports[(1 : Fin 24)]).mem.away = false ∧ (away.ports[(1 : Fin 24)]).mem.away = true ∧ (away.ports[(1 : Fin 24)]).mem.unreachable = false ∧
      (away.ports[(1 : Fin 24)]).mem.taken = true ∧ (away.ports[(1 : Fin 24)]).link.state ≠ .maint) ∧
    ((0, 0) ∈ lost.pool.degraded ∧ (0, 0) ∉ ready.pool.degraded ∧ findJob ready 0 0 = none ∧ findJob lost 0 0 = none ∧ lost.cons.contained = false ∧
      (fxEntry lost 0).isSome = true ∧ (((fxEntry lost 0).bind fun e => startCopy (begin lost) e 0 none)).isSome = true) ∧
    ((findJob job 0 0).isSome = true ∧ job.cons.contained = false) ∧
    (sparePort lost { fx := 0, part := 1 } 0 = some 1 ∧ sparePort State.reset { fx := 0, part := 1 } 0 = none) := by
  and_intros <;> decide +kernel

theorem wit_SlicesTakeReturnsAndExtents :
    let x : StoreSet := { set := 5, writes := 1, reading := true }
    let store := ready.updSlc 0 fun y => { y with sat := [x] }
    let g : TagSet := { ls := 7, writes := 1, reading := true }
    let tags := ready.updSlc 0 fun y => { y with tst := [g] }
    let waits := { store with hbm := { store.hbm with stk := store.hbm.stk.map fun y => { y with held := [{ ha := storeAddr 0 5 0 }] } } }
    let wait : Txn := { msg := { laddr := 0 }, status := .waiting }
    let behind := ready.updSlc 0 fun y => { y with txns := [{ wait with status := .opened }, { wait with id := 1 }] }
    let rec' := ready.updSlc 0 fun y => { y with sat := [{ set := sidx 0, recovering := true, copyValid := true }] }
    let r : AllocReq := { slice := 15, part := 1 }
    let asks := { ready with pool := { ready.pool with queue := [r, { slice := 0, collect := true, part := 1 }] } }
    let poor := { ready with mgmt := { ready.mgmt with cfg := ⟨keyWbReserve, 0, 9000⟩ :: ready.mgmt.cfg } }
    let spent := { ready with pool := { ready.pool with parts := [{ part := 1, alloc := 100 }] } }
    let fr := { ready with hbm := { ready.hbm with frames := [{ num := 0, valid := 1, owned := 1 }] } }
    (∀ r ∈ (ready.slices[(0 : Fin 16)]).reads, r.id ≠ 0) ∧ (hbmHeld store (storeAddr 0 5 (4 * 0)) = false ∧ hbmHeld waits (storeAddr 0 5 (4 * 0)) = true ∧ Sound waits) ∧
    ((tags.slices[(0 : Fin 16)]).tst.find? (·.ls == 7) = some g ∧ g.writes ≠ 0 ∧ hbmHeld tags (tagAddr tags.fuses.is144 0 7 + 64 * 7) = false) ∧
    (satFind (store.slices[(0 : Fin 16)]) 5 = some x ∧ x.writes ≠ 0 ∧ x ∈ (store.slices[(0 : Fin 16)]).sat) ∧
    (Sound behind ∧ lineBusy (behind.slices[(0 : Fin 16)]) 0 = true ∧ ∃ t ∈ (behind.slices[(0 : Fin 16)]).txns, t.msg.laddr = 0 ∧ t.status = .waiting) ∧
    (rec'.cons.contained = false ∧ sliceOf 0 = 0 ∧ isCandidate rec' 0 0 = true ∧ lineBusy (rec'.slices[(0 : Fin 16)]) 0 = false ∧ isCandidate ready 0 0 = false) ∧
    (Sound ready ∧ ready.pool.queue = [] ∧ asks.pool.queue ≠ [] ∧ (nextAlloc asks).map (·.collect) = some true ∧ asks.cons.contained = false ∧
      (ready.slices[(0 : Fin 16)]).answers = []) ∧
    (fxState (mapped .allocated) 0 ≠ .unallocated ∧ fxState ready 0 = .unallocated ∧ (allocate ready 0 1 false).2 = .ok ∧ (allocate spent 0 1 false).2 = .quota ∧
      (allocate poor 0 1 false).2 = .poolEmpty ∧ (allocate poor 0 1 true).2 = .ok) ∧
    ((partState spent 1).refused = false ∧ fxState (mapped .lost) 0 = .lost ∧ pageWritten (mapped .allocated) 0 0 = false ∧ (frameGet fr 0).state ≠ .free) ∧
    (let some' := { mapped .allocated with pool := { (mapped .allocated).pool with recs := [{ bx := 0, fx := 0, part := 1, bitmap := 1 }] } }
     let gone := { mapped .allocated with pool := { (mapped .allocated).pool with recs := [] } }
     let cut := { some' with pool := { some'.pool with discards := [(0, 1)] } }
     hasBitmap some' (fxOf some' 0) = true ∧ pageWritten some' (fxOf some' 0) (linePage some' 0) = true ∧ lineDiscarded some' 0 = false ∧ fxState gone (fxOf gone 0) = .allocated ∧
       hasBitmap gone (fxOf gone 0) = false ∧ lineDiscarded cut 0 = true) := by
  and_intros <;> decide +kernel

theorem wit_WalkersAndSweepsGoOn :
    let f := frameOf true 0 0 0
    let fr := { ready with hbm := { ready.hbm with frames := [{ num := f, valid := 3, owned := 2 }] } }
    let walk : Walker := { active := true }
    let part : Walker := { active := true, all := false, lo := 0, hi := 1 }
    let off := fr.updSlc 0 fun x => { x with sweepOff := some (122880 - 1) }
    let dis := { ready with disown := 32 }.updSlc 0 fun x => { x with disownPos := some 5 }
    let done := ({ ready with disown := 32 }.updBind 5 fun b => { b with status := .disowning, after := .withdrawn })
    let w : Work := { op := 0x0412, entries := [(0, 0)] }
    let copy := { ready with mgmt := { ready.mgmt with works := [w] } }
    let job : ExtJob := { oldBx := some 0, newBx := 1, fx := 0, copy := 0 }
    let moving := { mapped .allocated with pool := { (mapped .allocated).pool with jobs := [job] } }
    let bank := { ready with hbm := { ready.hbm with banks := [(0, 0, 0, 0)], bankJob := some (0, 0) } }
    (Sound ready ∧ (ready.slices[(0 : Fin 16)]).drain.active = false ∧ (ready.slices[(0 : Fin 16)]).flush.active = false ∧ (ready.slices[(0 : Fin 16)]).sweepOff = none) ∧
    (0 + 1 < setsPerSlice true ∧ setsPerSlice true ≤ (setsPerSlice true - 1) + 1) ∧ ((f, 1) ∈ walkTargets fr 0 walk ∧ (f, 1) ∈ walkTargets fr 0 part) ∧
    ((walkLine fr 0 f 1).isSome = true ∧ (frameGet fr f).state ≠ .free) ∧ ((off.slices[(0 : Fin 16)]).sweepOff = some 122879) ∧
    ((ready.slices[(0 : Fin 16)]).disownPos = none ∧ (dis.slices[(0 : Fin 16)]).disownPos = some 5 ∧ dis.cons.contained = false ∧ satFind (dis.slices[(0 : Fin 16)]) 5 = none ∧
      (dis.slices[(0 : Fin 16)]).sat.length < 64 ∧ ∃ x : StoreSet, satFind ((dis.updSlc 0 fun y => { y with sat := [{ set := 5, copyValid := true }] }).slices[(0 : Fin 16)]) 5 = some x ∧
        x.copyValid = true) ∧
    ((∀ k : Fin 16, (done.slices[k]).disownPos = none) ∧ done.disown.getLsbD 5 = true ∧ (done.bind 5).status = .disowning) ∧
    ((ready.slices[(0 : Fin 16)]).persistPos = none ∧ findWork ready 0x0410 = none ∧ findWork ready 0x0413 = none) ∧
    (0 < 1 ∧ (windowOf ready (0 * 64)).isSome = true ∧ (homeOf ready (0 * 64)).1 = ownIndex ready) ∧ (Sound copy ∧ findWork copy 0x0412 = some w ∧ w.entries ≠ []) ∧
    (moving.cons.contained = false ∧ findJob moving 0 0 = some job ∧ job.oldBx.isSome = true ∧ (fxEntry moving 0).map (·.state) = some .allocated ∧ job.next < 32768 ∧
      pageWritten moving job.fx (job.next / 64) = false ∧ spareBusy moving job = false ∧ fxEntry ready 0 = none) ∧
    (ready.hbm.bankJob = none ∧ ready.mgmt.works = [] ∧ bank.hbm.bankJob = some (0, 0) ∧ bank.hbm.banks[0]? = some (0, 0, 0, 0) ∧
      (nextSpareBlock bank).isSome = true ∧ 0 < metaRows bank.fuses.is144 ∧ blockOf true 0 0 0 0 0 * 4096 < cacheBase) := by
  and_intros <;> decide +kernel

theorem wit_ChecksAndHbmController :
    let bad := { ready with slices := ready.slices.set 0 { shadow := { wbuf := 1 } } }
    let lost : TmrUpset := { word := 0, index := 0, copies := (1, 2, 3) }
    let struck := { ready with prot := { ready.prot with upsets := [lost, { word := 3, index := 5, copies := (0, 0, 1) }] } }
    let back := { ready with mgmt := { ready.mgmt with cfg := ⟨keyPatrolBacking, 0, 1⟩ :: ready.mgmt.cfg } }
    let deep := { mapped .allocated with pool := { (mapped .allocated).pool with recs := [{ bx := 0, fx := 0, part := 1, bitmap := 1 }] } }
    let lines := { deep with prot := { deep.prot with scrub := { state := 1, hbm := false, port := 1, next := 0, stop := 4 } } }
    let held : HeldAccess := { bank := 4095, ha := 0 }
    let on := { ready with mgmt := { ready.mgmt with cfg := ⟨keyPatrolHbm, 0, 1⟩ :: ready.mgmt.cfg },
                           prot := { ready.prot with patrolHbm := cacheBase } }
    let off := { ready with mgmt := { ready.mgmt with cfg := ⟨keyPatrolHbm, 0, 0⟩ :: ⟨keyPatrolBacking, 0, 0⟩ :: ready.mgmt.cfg } }
    let scrub := { ready with prot := { ready.prot with scrub := { state := 1, hbm := true, next := cacheBase, stop := cacheBase + 128 } } }
    let data := { scrub with hbm := { scrub.hbm with frames := [{ num := 0, valid := 1 }] } }
    let hot := { ready with hbm := { ready.hbm with stk := ready.hbm.stk.set 3 { trained := true, raa := [(4095, 32)], retrainPending := true } } }
    (Sound ready ∧ (∀ x ∈ identitiesOf State.reset .allocator, x.2.2 = true) ∧ failingOf State.reset .allocator = []) ∧
    (failingOf bad (.slice 0) = [] ∧ ∃ x ∈ identitiesOf bad (.slice 0), x.2.2 = false) ∧
    (ready.cons.contained = false ∧ State.reset.hbm.initDone = false ∧ State.reset.pool.rebuilt = false ∧ Sound State.reset ∧ ready.hbm.initDone = true ∧ ready.pool.rebuilt = true) ∧
    ((frameTally ready 0 1).present + (frameTally ready 0 1).retired ≤ 1 * 16 ∧ lost ∈ struck.prot.upsets ∧ lost.copies.1 ≠ lost.copies.2.1 ∧ lost.copies.2.1 ≠ lost.copies.2.2 ∧
      lost.copies.1 ≠ lost.copies.2.2 ∧ ({ copies := (0, 0, 1) } : TmrUpset).copies.1 = 0 ∧ ready.prot.upsets = [] ∧
      (wordRead struck 3 5).prot.upsets = [lost]) ∧
    (cfgGet back keyPatrolBacking 0 ≠ 0 ∧ (back.ports[(1 : Fin 24)]).mem.taken = true ∧ skipBacking back 1 0 = true ∧ (back.ports[(0 : Fin 24)]).mem.taken = false) ∧
    (lines.prot.scrub.state = 1 ∧ lines.prot.scrub.hbm = false ∧ lines.prot.scrub.port = (1 : Fin 24).val ∧ lines.prot.scrub.next < lines.prot.scrub.stop ∧
      skipBacking lines 1 0 = false ∧ (lines.ports[(1 : Fin 24)]).mem.taken = true ∧ (lines.ports[(1 : Fin 24)]).mem.unreachable = false ∧
      (cfgGet { deep with mgmt := back.mgmt } keyPatrolBacking 0 ≠ 0 ∧ skipBacking { deep with mgmt := back.mgmt } 1 0 = false)) ∧
    ((State.reset.hbm.stk[(3 : Fin 4)]).raammt ≤ raaOf { (hot.hbm.stk[(3 : Fin 4)]) with raa := [(4095, (hot.hbm.stk[(3 : Fin 4)]).raammt)] } held.bank ∧
      raaOf (hot.hbm.stk[(3 : Fin 4)]) 0 < (hot.hbm.stk[(3 : Fin 4)]).raammt ∧ (hot.hbm.stk[(3 : Fin 4)]).held = []) ∧
    (cfgGet off keyPatrolHbm 0 = 0 ∧ cfgGet off keyPatrolBacking 0 = 0 ∧ cfgGet on keyPatrolHbm 0 ≠ 0 ∧ scrubCovers on true 0 on.prot.patrolHbm = false ∧ skipHbm on on.prot.patrolHbm = true ∧ Sound on) ∧
    (Sound scrub ∧ scrub.prot.scrub.state = 1 ∧ scrub.prot.scrub.hbm = true ∧ skipHbm scrub scrub.prot.scrub.next = true ∧ scrub.prot.scrub.next + 64 < scrub.prot.scrub.stop ∧
      ready.prot.scrub.state ≠ 1 ∧ ready.prot.scrub.addrs.length ≤ 16) ∧
    (isCacheData data data.prot.scrub.next = true ∧ skipHbm data data.prot.scrub.next = false ∧
      (scrubHbm ((begin data).updScrub fun x => { x with next := x.next + 64 }) data.prot.scrub.next { flips := [(1, 1), (2, 2), (3, 4)] }).2.ue = true) ∧
    ((State.reset.hbm.stk[(3 : Fin 4)]).trained = false ∧ (hot.hbm.stk[(3 : Fin 4)]).trained = true ∧ rfmAt hot 3 ≤ raaOf (hot.hbm.stk[(3 : Fin 4)]) 4095 ∧
      raaOf (hot.hbm.stk[(3 : Fin 4)]) 0 < rfmAt hot 3) ∧
    (thermalStep 0 851 ≠ 0 ∧ (1000 : Int) < 1001 ∧ (970 : Int) < 971 ∧ (970 : Int) ≤ 970 ∧ (920 : Int) ≤ 920 ∧ (820 : Int) ≤ 820 ∧ (850 : Int) ≤ 850) ∧
    (Sound hot ∧ (hot.hbm.stk[(3 : Fin 4)]).retrainPending = true ∧ (caching hot .disabled).hbm.cache = .disabled ∧ hot.hbm.cache ≠ .disabled) := by
  and_intros <;> decide +kernel

/-- The device sending on the observation port. -/
def observing (mode : Nat) (f : Obs → Obs) : State :=
  { ready with mgmt := { ready.mgmt with cfg := ⟨keyObsStream, 0, mode⟩ :: ready.mgmt.cfg }, obs := f ready.obs }

theorem wit_LedgerAndObservationTicks :
    let full := { ready with led := { ready.led with sinceCkpt := 24576 } }
    let x : Stal := { id := 9, index := 23, value := 2, written := 1 }
    let stal := { ready with led := { ready.led with stal := [x] } }
    let cal := { ready with cal := { ready.cal with valid := true } }
    let off := clocked ready fun c => { c with pwrgood := false }
    (Sound ready ∧ ledgerWritable ready = true ∧ ready.led.sinceCkpt < 24576 ∧ Sound full ∧ ledgerWritable full = true ∧ 24576 ≤ full.led.sinceCkpt ∧
      ledgerWritable State.reset = false ∧ Sound State.reset) ∧
    (stal.mgmt.pri.ringIgnored ≤ 255 ∧ ledgerWritable stal = true ∧ x ∈ stal.led.stal ∧ x.written < x.value) ∧ (ready.cal.valid = false ∧ ledgerWritable cal = true ∧ cal.cal.valid = true) ∧
    (ready.clk.pwrgood = true ∧ Sound off ∧ off.clk.pwrgood = false) ∧ ((List.replicate 32 1000000).length = 32 ∧ ∀ r ∈ List.replicate 32 1000000, r ≠ 0) ∧
    (0 < 1000000 ∧ 20 * 950000 ≤ 19 * 1000000) ∧ ready.obs.stalled = [] ∧ cfgGet ready keyObsStream 0 ≠ 2 ∧
    (Sound (observing 2 fun o => { o with snapQ := [[1]] }) ∧ cfgGet (observing 2 fun o => o) keyObsStream 0 = 2 ∧ snapshotSending (observing 2 fun o => { o with snapQ := [[1]] }) = true ∧
      snapshotSending (observing 2 fun o => o) = false ∧ (observing 2 fun o => o).clk.reset = none) ∧
    (Sound (observing 1 fun o => { o with obsSync := 1 }) ∧ cfgGet (observing 1 fun o => o) keyObsStream 0 ≠ 0 ∧ (observing 1 fun o => { o with obsSync := 0 + 1 }).obs.obsSync = 0 + 1) ∧
    (let s := observing 1 fun o => { o with obsSync := 0, obsRec := [], obsSince := 4096 }
     Sound s ∧ s.obs.obsSync = 0 ∧ s.obs.obsRec = [] ∧ 4096 ≤ s.obs.obsSince) ∧
    (let s := observing 1 fun o => { o with obsSync := 0, obsRec := [], obsSince := 4095 }
     s.obs.obsSince < 4096 ∧ s.obs.snapQ = [] ∧ s.obs.trace.length ≤ s.obs.traceHidden) ∧
    (let s := observing 1 fun o => { o with obsSync := 0, obsRec := [], obsSince := 4095, trace := [[7, 8], [9]], traceHidden := 1 }
     s.obs.trace = (7 :: [8]) :: [[9]] ∧ s.obs.traceHidden ≤ [[9]].length ∧ s.obs.snapQ = []) ∧
    (observing 1 fun o => { o with obsSync := 0, obsRec := [7], obsFromTrace := true }).obs.obsRec = 7 :: [] := by
  and_intros <;> decide +kernel

/-- The rising counts of the stalagmite of the witness above are sound too. -/
theorem wit_SoundWithACounter :
    Sound { ready with led := { ready.led with stal := [({ id := 9, index := 23, value := 2, written := 1 } : Stal)] } } :=
  ⟨by decide +kernel, by decide +kernel, by decide +kernel, by decide +kernel, List.pairwise_singleton _ _, fun x h => by
    simp only [List.mem_singleton] at h; subst h; decide⟩

theorem wit_ReadSharedIsGrantedExclusive :
    let t : Txn := { msg := { src := 5, attr := 1 }, part := 1, port := some 0, grant := some .dataE }
    t.kind = .req .rdShared ∧ t.grant = some .dataE ∧ attrE t.msg.attr = true ∧ bitOf (cfgGet ready keyFlags t.part) 0 = true := by
  and_intros <;> decide +kernel

theorem wit_PoisonOfPayloads :
    let m : OutMsg := { op := .dataE, dest := 255, tag := 4095, laddr := 2 ^ 46 - 1, poison := true, size := 6 }
    opHasData .wrFull = true ∧ opMaskForm .wrFull = false ∧ opMaskForm .wrPart = true ∧ opHasData .wrPart = true ∧
    (opHasData m.op = true ∧ m.dest < 256 ∧ m.tag < 4096 ∧ m.laddr < 2 ^ 46 ∧ ownIndex ready < 256 ∧ m.aop < 256 ∧ m.size < 256) := by
  and_intros <;> decide +kernel

theorem wit_WatermarksCrossOnce :
    let low := { ready with mgmt := { ready.mgmt with cfg := ⟨keyWmWb, 0, 1⟩ :: ⟨keyWmPool, 0, 8191⟩ :: ready.mgmt.cfg } }
    let e : WbEntry := {}
    let one := low.updSlc 15 fun x => { x with wbuf := [e] }
    let two := low.updSlc 15 fun x => { x with wbuf := [e, e] }
    let less := wired low 1 fun x => { x with mem := { x.mem with fresh := [(0, 8190)] } }
    let crossed := { two with mgmt := { two.mgmt with wms := two.mgmt.wms.set 15 { crossed := true } } }
    ((15 : Fin 49).val < 48 ∧ wmLevel two 15 = 1 ∧ ((two.mgmt.wms[(15 : Fin 49)]).crossed = false) ∧ wmCount one 15 ≤ 1 ∧ 1 < wmCount two 15 ∧ two.mgmt.intake.length + 49 ≤ 256) ∧
    (wmLevel less 48 = 8191 ∧ (less.mgmt.wms[(48 : Fin 49)]).crossed = false ∧ 8191 ≤ wmCount low 48 ∧ wmCount less 48 < 8191 ∧ 14 ∈ low.clk.stepDone) ∧
    ((crossed.mgmt.wms[(15 : Fin 49)]).crossed = true ∧ crossed.mgmt.intake.length + 49 ≤ 256) ∧
    (((low.mgmt.wms[(15 : Fin 49)]).recheck && (one.mgmt.wms[(15 : Fin 49)]).recheck) = false ∧ wmCount one 15 ≤ wmLevel one 15 ∧ wmLevel two 15 < wmCount two 15 ∧
      wmLevel low 48 ≤ wmCount low 48) := by
  and_intros <;> decide +kernel

/-! ## Values the spec works out -/

/-- "123456789" in ASCII. -/
def digits : List Byte := [0x31, 0x32, 0x33, 0x34, 0x35, 0x36, 0x37, 0x38, 0x39]

/-- R36: the check value of the CRC-64. -/
theorem test_crc64 : crc64 digits = 0x995DC9BBDF1939FA := by decide +kernel

/-- R206: the check value of the CRC-32. -/
theorem test_crc32 : crc32 digits = 0xCBF43926 := by decide +kernel

/-- R14: the example after Table ARC-2: hank, line and slice of an address. -/
theorem test_slice_of_address : let l := 0x07E4125C36040 / 64
    l = 0x1F904970D81 ∧ hankOf l = 0x7E4125C36 ∧ lineIn l = 1 ∧ sliceOf l = 2 := by decide +kernel

/-- Table DIR-2: the directory indices of the line. -/
theorem test_directory_indices : let l := 0x1F904970D81
    dirTag l = 0x0FC824 ∧ sidx l = 0x18C5A5 ∧ cidx l = 0x5A5 ∧ ssetHi l = 0x18C := by decide +kernel

/-- Table DIR-2: stack and pseudo-channel of the store entry's address. -/
theorem test_stack_of_store_entry : stackOf 0x058C5A560 = 2 ∧ pcOf 0x058C5A560 = 5 := by decide +kernel

/-- Table MSC-2: the hank's local set and the frame of its way 0 on a PNH6424-144; and the address of the line in the example of R229. -/
theorem test_frame_of_hank : localSet true 0x7E4125C36 = 30677 ∧ frameOf true 2 30677 0 = 4422992 ∧
    frameLineAddr 100000 5 = 0x2D86A0140 := by decide +kernel

/-- Table MSG-4: the bytes of the example header, and their decoding. -/
theorem test_header_bytes :
    let h : Hdr := { src := 5, dest := 0, tag := 0x2A7, laddr := 0x1F904970D81, attr := 0x09, ts := 0x3B9ACA07 }
    (encodeHdr .rdShared h).take 17 = [0x10, 0x05, 0x00, 0xA7, 0x12, 0xD8, 0x70, 0x49, 0x90, 0x1F, 0x24, 0x00, 0x00, 0x1C, 0x28, 0x6B, 0xEE] ∧
    decodeHdr (encodeHdr .rdShared h) = h := by decide +kernel

/-- The CAS example after Table MSG-10: the new value and the value returned. -/
theorem test_cas_swaps : atomicLine 3 3 0xFF000000 (((2 : Line) <<< 192) ||| ((1 : Line) <<< 448)) ((1 : Line) <<< 192) =
    ((2 : Line) <<< 192, (1 : Line) <<< 192) := by decide +kernel

/-- The audit example of R52. -/
theorem test_audit_example :
    let x : Port := { rx := { rcvd := { req := 1000960 }, pools := { req := 256 }, retSent := { req := 1000848 } } }
    auditHolds x 0 (padTo 18 ([0xF3, 0] ++ leBytes 4 1000960 ++ leBytes 4 1000800 ++ leBytes 2 96 ++ leBytes 2 256)) = true ∧
    auditHolds x 0 (padTo 18 ([0xF3, 0] ++ leBytes 4 1000960 ++ leBytes 4 1000800 ++ leBytes 2 97 ++ leBytes 2 256)) = false := by decide +kernel

/-- Table LNK-8: the header of flit 2, SEQ 38 with CONT 2. -/
theorem test_flit_header : (encodeFlit 1 38 true 2 false []).take 2 = [0x26, 0x14] := by decide +kernel

/-- Table DOM-4: home and device-local address in a domain of four. -/
theorem test_home_of_address :
    let s := { ready with mgmt := { ready.mgmt with cfg := ⟨keyGran, 0, 30⟩ :: (List.range 64).map fun i => ⟨keyIt, i, i % 4⟩ } }
    homeOf s 0x0080500001040 = (0, 0x20140001040) ∧ (homeOf s (0x2015 * 2 ^ 30)).1 = 1 := by decide +kernel

/-- The decoder example of R195: HPA to fabric address over two windows. -/
theorem test_hpa_to_fabric :
    let d : Vector HdmDecoder 4 := (Vector.replicate 4 {}).set 0 { base := 0x200000000000, size := 320 * 2 ^ 30, committed := true }
    fabricOfHpa { layout := some [(3, 0x040000000000, 256 * 2 ^ 30), (5, 0x080000000000, 64 * 2 ^ 30)], decoders := d } 0x204500001040 = some 0x080500001040 := by
  decide +kernel

/-- The example of R229: ADDR_CHECK and stack of a cache line's address. -/
theorem test_addr_check : addrCheck 0x2D86A0140 = 0xC7 ∧ stackOf 0x2D86A0140 = 2 ∧ pcOf 0x2D86A0140 = 9 := by decide +kernel

/-- Table CONS-6: the fault code of slice 6's write-buffer identity. -/
theorem test_fault_code : auditCode 5 0 (.slice 6) = 0x00060005 := by decide +kernel

/-- A symbol changed in a stored codeword is corrected (R227). -/
theorem test_hbm_symbol_corrected : hbmDecode 0x2D86A0140 ((hbmCodeword 0x2D86A0140 9 false).modify 5 (· ^^^ 0x80)) = .good 9 false 32 := by decide +kernel

/-- A flit of OLK2 with two symbols of one interleave changed is repaired (R37). -/
theorem test_fec_repairs : fecDecode 2 ((encodeFlit 2 7 true 0 false []).modify 9 (· ^^^ 0xFF)) = some (encodeFlit 2 7 true 0 false [], 1) := by decide +kernel

/-- Table MSC-7: 93.1 °C is between the steps; it keeps step 2 and is not above step 1's end. -/
theorem test_thermal_hysteresis : thermalStep 2 931 = 2 ∧ thermalStep 1 931 = 1 ∧ thermalStep 0 860 = 1 ∧ thermalStep 1 821 = 1 := by decide +kernel

/-- R376: the margin rounds half up. -/
theorem test_margin : marginOf 975000 1000000 = 500 ∧ marginOf 1000000 1000000 = 1000 ∧ marginOf 949999 1000000 = 0 := by decide +kernel

/-! ## The queue -/

/-- An empty queue idles; the front command runs and leaves the rest. -/
theorem test_idle : (match step ready with | .next t => t.pending == [] && t.obs.cycles == ready.obs.cycles + 1 | _ => false) = true := by decide +kernel

/-- Table PKG-5: ball H49 is P07_RX3_N and ball BE58 is OBS_D0_P; R410: row 43 is BE. -/
theorem test_balls : ballUse 8 49 = .lane (some 7) false 3 true ∧ ballUse 43 58 = .signal (.obsData 0 false) ∧ rowName 43 = ['B', 'E'] ∧
    rowName 8 = ['H'] := by decide +kernel

/-- R424: PNH6424-144-B1-T has the 144 GB variant and STEPPING 0x21. -/
theorem test_ordering : orderingCode { ready with fuses := { ready.fuses with is144 := true, stepping := 0x21 } } true =
    ['P', 'N', 'H', '6', '4', '2', '4', '-', '1', '4', '4', '-', 'B', '1', '-', 'T'] := by decide +kernel

/-- Two commands run first in, first out. -/
theorem test_front_runs : (match step { ready with pending := [.perstNAssert, .perstNDeassert] } with
    | .next t => t.pending == [.perstNDeassert] && !t.clk.perstN
    | _ => false) = true := by decide +kernel

/-! ## Well-formed commands: one ill-formed term for each check, which the check refuses -/

theorem wf_accepts : WellFormed (.identify (area [])) = true ∧ WellFormed (.rdShared (.arrive 0 {} 0 0)) = true ∧ WellFormed (.form {}) = true ∧
    WellFormed (.junctionTempRead (List.replicate 24 300)) = true ∧ WellFormed (.agingSample (List.replicate 32 1)) = true := by decide +kernel

theorem wf_area : WellFormed (.identify { via := .relay }) = false ∧ WellFormed (.cfgGet { target := 256 }) = false ∧ WellFormed (.cfgSet { resv := 2 ^ 56 }) = false ∧
    WellFormed (.retire { payloadLen := 65536, payload := List.replicate 4080 0 }) = false ∧ WellFormed (.logRead { cookie := 2 ^ 32 }) = false ∧
    WellFormed (.ctrRead { payloadLen := 2, payload := [0] }) = false ∧ WellFormed (.badOpcode 65536 {}) = false := by decide +kernel

theorem wf_messages : WellFormed (.rdOwn (.arrive 0 { src := 256 } 0 0)) = false ∧ WellFormed (.rdOwn (.arrive 0 { dest := 256 } 0 0)) = false ∧
    WellFormed (.wrFull (.arrive 0 { tag := 4096 } 0 0)) = false ∧ WellFormed (.atomic (.arrive 0 { laddr := 2 ^ 46 } 0 0)) = false ∧
    WellFormed (.atomic (.arrive 0 { aop := 256 } 0 0)) = false ∧ WellFormed (.wrPart (.arrive 0 { size := 256 } 0 0)) = false ∧
    WellFormed (.rspI (.arrive 0 { ts := 2 ^ 32 } 0 0)) = false := by decide +kernel

theorem wf_frames : WellFormed (.form { dst := 256 }) = false ∧ WellFormed (.formDone { src := 256 }) = false ∧ WellFormed (.timeSync { hops := 256 }) = false ∧
    WellFormed (.relayCmd { payload := List.replicate 241 0 }) = false ∧ WellFormed (.commitAck { crc := some (2 ^ 32) }) = false := by decide +kernel

theorem wf_link : WellFormed (.tsEq 0 0 (List.replicate 31 0)) = false ∧ WellFormed (.mac 0 (List.replicate 17 0)) = false ∧
    WellFormed (.flitReceived 0 (List.replicate 129 0)) = false := by decide +kernel

theorem wf_memory : WellFormed (.memRdData 0 { tag := 4096 }) = false ∧ WellFormed (.memRdData 0 { maddr := 2 ^ 46 }) = false ∧ WellFormed (.memWrAck 0 4096 { maddr := 0 }) = false ∧
    WellFormed (.memWrAck 0 0 { maddr := 2 ^ 46 }) = false ∧ WellFormed (.hbmReturn 0 0 { err := { flips := [(72, 1)] } }) = false ∧ WellFormed (.hbmReturn 0 0 { err := { flips := [(3, 1), (3, 2)] } }) = false ∧
    WellFormed (.storeSetReturn 0 (2 ^ 21) {}) = false ∧ WellFormed (.storeSetReturn 0 0 { errs := [(1, {}), (1, {})] }) = false ∧
    WellFormed (.storeSetReturn 0 0 { errs := [(1, { flips := [(72, 1)] })] }) = false ∧ WellFormed (.hbmWriteComplete 0 (.store (2 ^ 21))) = false ∧
    WellFormed (.hbmWriteComplete 0 (.tags 122880)) = false ∧
    WellFormed (.tagSetReturn 0 122880 []) = false ∧ WellFormed (.tagSetReturn 0 0 [(1, {}), (1, {})]) = false ∧
    WellFormed (.tmrSweep [{ word := 5 }]) = false ∧ WellFormed (.tmrSweep [{ index := 512 }]) = false ∧ WellFormed (.scrubStep { flips := [(72, 1)] } false) = false := by decide +kernel

theorem wf_cxl : WellFormed (.cxlMemRd 2 { addr := 2 ^ 52 }) = false ∧ WellFormed (.cxlMemRd 2 { addr := 65 }) = false ∧ WellFormed (.cxlMemWr 2 { tag := 65536 }) = false ∧
    WellFormed (.cxlMemInv 2 { metaField := 4 }) = false ∧ WellFormed (.cxlMemInv 2 { metaValue := 4 }) = false ∧ WellFormed (.cxlBiRsp 2 { snpType := 8 }) = false ∧
    WellFormed (.cxlCreditReturn 2 65536 0 0) = false ∧ WellFormed (.expanderEventPoll 2 [(2, 0)]) = false ∧ WellFormed (.expanderEnumeration 3 { rate := 16 }) = false ∧
    WellFormed (.expanderEnumeration 3 { width := 8 }) = false ∧ WellFormed (.ideKm 2 0 2 false 0) = false ∧
    WellFormed (.getTimestamp 2 (List.replicate 2049 0)) = false ∧ WellFormed (.cxlUnsupportedOpcode 2 65536 []) = false := by decide +kernel

theorem wf_security : WellFormed (.getVersion 16) = false ∧ WellFormed (.getCertificate 0 256 0 0) = false ∧ WellFormed (.getCertificate 0 0 65536 0) = false ∧
    WellFormed (.getCertificate 0 0 0 65536) = false ∧ WellFormed (.challenge 0 0 (2 ^ 256)) = false ∧ WellFormed (.getMeasurements 0 256 false 0) = false ∧
    WellFormed (.finish 0 (2 ^ 32)) = false ∧ WellFormed (.spdmUnsupportedRequest 0 256) = false ∧ WellFormed (.keyErase (2 ^ 32) 0) = false ∧
    WellFormed (.keyProg 0 0 false false (2 ^ 256) 0) = false ∧ WellFormed (.keyProg 0 0 false false 0 (2 ^ 96)) = false ∧ WellFormed (.smbusArp (2 ^ 128) 0) = false ∧
    WellFormed (.smbusArp 0 128) = false ∧ WellFormed (.setEndpointId 256) = false := by decide +kernel

theorem wf_numbers : WellFormed (.registerWrite 0 3 0) = false ∧ WellFormed (.registerWrite 65536 4 0) = false ∧ WellFormed (.registerWrite 0 1 256) = false ∧
    WellFormed (.clockSwitch 8) = false ∧ WellFormed (.gateStop 5 0 0) = false ∧ WellFormed (.gateWake 4 24 0) = false ∧ WellFormed (.gateWake 3 0 4) = false ∧
    WellFormed (.snoopTimeout 0 0 64) = false ∧ WellFormed (.waitingRequestOpen 0 { laddr := 2 ^ 46 }) = false ∧ WellFormed (.tripleRebuild 0 3) = false ∧
    WellFormed (.hbmRefresh 0 4096) = false ∧ WellFormed (.dmaHalt 8 0) = false ∧ WellFormed (.dataLoadUe (2 ^ 40)) = false ∧ WellFormed (.stalagmiteFlush 10 0) = false ∧
    WellFormed (.stalagmiteFlush 0 0) = false ∧ WellFormed (.stalagmiteFlush 1 24) = false ∧ WellFormed (.agingSample []) = false ∧
    WellFormed (.junctionTempRead [0]) = false ∧ WellFormed (.jtagExtest []) = false ∧ WellFormed (.jtagSamplePreload [true] []) = false ∧
    WellFormed (.checkerSelftestDone (2 ^ 32)) = false ∧ WellFormed (.spindleRestart (2 ^ 32)) = false ∧ WellFormed (.errorLogWindowRead 0 2 false) = false := by decide +kernel

end Sys2Proof.Tests
end

/-! PROOFS. A header slot and the data slots of a payload decode to what was encoded (R60, R64), and from this the poison of payloads (R65). -/

namespace Sys2Proof

/-! ## A line and its bytes -/

/-- A line folded from bytes holds bit j of the line in bit j mod 8 of byte j / 8. -/
theorem Line.getLsbD_foldr_bytes (bs : List Byte) (j : Nat) (hj : j < 512) :
    (bs.foldr (fun b (acc : Line) => (acc <<< 8) ||| b.setWidth 512) 0).getLsbD j = (bs.getD (j / 8) 0).getLsbD (j % 8) := by
  induction bs generalizing j with
  | nil => simp
  | cons b bs ih =>
    rw [List.foldr_cons, BitVec.getLsbD_or, BitVec.getLsbD_shiftLeft, BitVec.getLsbD_setWidth]
    by_cases h : j < 8
    · simp [h, hj, Nat.div_eq_of_lt h, Nat.mod_eq_of_lt h]
    · have hdiv : j / 8 = (j - 8) / 8 + 1 := by omega
      have hmod : j % 8 = (j - 8) % 8 := by omega
      rw [ih (j - 8) (by omega), hdiv, hmod, List.getD_cons_succ, BitVec.getLsbD_of_ge b j (by omega)]
      simp [h, hj]

theorem Line.getLsbD_ofBytes (bs : List Byte) (j : Nat) (hj : j < 512) :
    (Line.ofBytes bs).getLsbD j = (bs.getD (j / 8) 0).getLsbD (j % 8) := by
  have hbyte : j / 8 < 64 := by omega
  rw [Line.ofBytes, Line.getLsbD_foldr_bytes _ j hj]
  simp [List.getD_eq_getElem?_getD, List.getElem?_take_of_lt hbyte]

/-- R6: the bytes of a line make the line again. -/
@[simp] theorem Line.ofBytes_bytes (l : Line) : Line.ofBytes l.bytes = l := by
  refine BitVec.eq_of_getLsbD_eq fun j hj => ?_
  have hbyte : j / 8 < 64 := by omega
  have hbit : j % 8 < 8 := by omega
  rw [Line.getLsbD_ofBytes _ j hj, Line.bytes, List.getD_eq_getElem?_getD, List.getElem?_map, List.getElem?_range hbyte]
  simp [Line.byte, hbit, Nat.div_add_mod]

/-! ## The widths of a header -/

/-- Table MSG-2: every field of a header fits its width. -/
def Hdr.Fits (h : Hdr) : Prop :=
  h.src < 2 ^ 8 ∧ h.dest < 2 ^ 8 ∧ h.tag < 2 ^ 12 ∧ h.laddr < 2 ^ 46 ∧ h.aop < 2 ^ 8 ∧ h.size < 2 ^ 8 ∧ h.ts < 2 ^ 32

end Sys2Proof

namespace Sys2Proof.Machine
open Sys2Proof

/-! ## Little-endian bytes in pieces -/

/-- The bytes of a number are its low bytes, then those of the number shifted down. -/
theorem leBytes_add (m n x : Nat) : leBytes (m + n) x = leBytes m x ++ leBytes n (x >>> (8 * m)) := by
  induction m generalizing x with
  | zero => simp [leBytes]
  | succ m ih =>
    rw [Nat.succ_add, leBytes, ih, ← Nat.shiftRight_add, show 8 + 8 * m = 8 * (m + 1) by omega, leBytes, List.cons_append]

/-- Two bytes hold a number modulo 2^16. -/
theorem leBytes_two_mod (x : Nat) : leBytes 2 (x % 2 ^ 16) = leBytes 2 x := by
  simp only [leBytes, Nat.shiftRight_eq_div_pow, List.cons.injEq, and_true]
  constructor <;> refine BitVec.eq_of_toNat_eq ?_ <;> simp only [BitVec.toNat_ofNat] <;> omega

/-- The 16-bit pieces of a number, two bytes each, are its bytes. -/
theorem flatMap_leBytes_bits (n x : Nat) :
    (List.range n).flatMap (fun k => leBytes 2 (bits x (16 * k + 15) (16 * k))) = leBytes (2 * n) x := by
  induction n with
  | zero => rfl
  | succ n ih =>
    have hpiece : leBytes 2 (bits x (16 * n + 15) (16 * n)) = leBytes 2 (x >>> (8 * (2 * n))) := by
      rw [bits, show 16 * n + 15 + 1 - 16 * n = 16 by omega, leBytes_two_mod, show 16 * n = 8 * (2 * n) by omega]
    rw [List.range_succ, List.flatMap_append, ih, List.flatMap_singleton, hpiece, ← leBytes_add, Nat.mul_succ]

/-- Rows of m entries, one after the other, are the entries in order. -/
theorem flatMap_range_map {α : Type} (f : Nat → α) (m n : Nat) :
    (List.range n).flatMap (fun k => (List.range m).map fun i => f (m * k + i)) = (List.range (m * n)).map f := by
  induction n with
  | zero => rfl
  | succ n ih => simp [List.range_succ, ih, Nat.mul_succ, List.range_add]

/-! ## Slots decode to what was encoded -/

theorem opCode_lt (o : Op) : opCode o < 2 ^ 8 := by
  cases o <;> decide

/-- R60: a header whose fields fit takes the 138 bits below the reserved ones. -/
theorem hdrNat_lt (o : Op) (h : Hdr) (hf : h.Fits) : hdrNat o h < 2 ^ 138 := by
  obtain ⟨hsrc, hdest, htag, hladdr, haop, hsize, hts⟩ := hf
  have hop := opCode_lt o
  have hattr := h.attr.isLt
  simp only [hdrNat]
  omega

/-- R60: the fields lie in the header's number without overlap. -/
theorem hdrOfNat_hdrNat (o : Op) (h : Hdr) (hf : h.Fits) : hdrOfNat (hdrNat o h) = h := by
  obtain ⟨src, dest, tag, laddr, attr, aop, size, ts⟩ := h
  obtain ⟨hsrc, hdest, htag, hladdr, haop, hsize, hts⟩ := hf
  have hop := opCode_lt o
  have hattr := attr.isLt
  simp only [hdrOfNat, hdrNat, bits, Nat.shiftRight_eq_div_pow, Hdr.mk.injEq] at *
  refine ⟨?_, ?_, ?_, ?_, BitVec.eq_of_toNat_eq ((BitVec.toNat_ofNat _ 8).trans ?_), ?_, ?_, ?_⟩ <;> omega

/-- R60: a header slot decodes to the header it was made of. -/
theorem decodeHdr_encodeHdr (o : Op) (h : Hdr) (hf : h.Fits) : decodeHdr (encodeHdr o h) = h := by
  have hlt := hdrNat_lt o h hf
  rw [decodeHdr, encodeHdr, List.take_of_length_le (by simp), ofLe_leBytes, Nat.mod_eq_of_lt (by omega), hdrOfNat_hdrNat o h hf]

theorem encodeData_length (d : Line) (metaw : Nat) : (encodeData d metaw).length = 4 := by
  simp [encodeData]

/-- The first 16 bytes of the data slots are the bytes of the line. -/
theorem encodeData_line (d : Line) (metaw : Nat) : (encodeData d metaw).flatMap (·.take 16) = d.bytes := by
  simp [encodeData, List.flatMap_map, flatMap_range_map, Line.bytes]

/-- The last 2 bytes of the data slots are those of META. -/
theorem encodeData_meta (d : Line) (metaw : Nat) : (encodeData d metaw).flatMap (fun s => (s.drop 16).take 2) = leBytes 8 metaw := by
  simp [encodeData, List.flatMap_map, List.take_of_length_le, flatMap_leBytes_bits]

/-- R64: four data slots decode to their line and the 64 bits of their META. -/
theorem decodeData_encodeData (d : Line) (metaw : Nat) : decodeData (encodeData d metaw) = (d, metaw % 2 ^ 64) := by
  rw [decodeData, encodeData_line, encodeData_meta, Line.ofBytes_bytes, ofLe_leBytes, show 256 ^ 8 = 2 ^ 64 from rfl]

/-! ## The poison of a payload received -/

theorem payloadPoison_lineForm (op : Op) (a : BitVec 8) (w : Mask) (hd : opHasData op = true) (hm : opMaskForm op = false) :
    payloadPoison op a w = (attrPoison a || w.getLsbD 0) := by
  simp [payloadPoison, hd, hm]

theorem payloadPoison_maskForm (op : Op) (a : BitVec 8) (w : Mask) (hd : opHasData op = true) (hm : opMaskForm op = true) :
    payloadPoison op a w = attrPoison a := by
  simp [payloadPoison, hd, hm]

/-! ## The poison of a payload sent -/

/-- R60 to R63: ATTR of a message of the home. -/
def outAttr (s : State) (p : Fin 24) (m : OutMsg) : BitVec 8 :=
  (m.attr &&& 0xF3) ||| (if m.poison then 0x04 else 0) ||| (if (s.port p).rx.tsEnabled then 0x08 else 0)

/-- R60 to R63: the header of a message of the home. -/
def outHdr (s : State) (p : Fin 24) (m : OutMsg) : Hdr :=
  { src := ownIndex s, dest := m.dest, tag := m.tag, laddr := m.laddr, attr := outAttr s p m, aop := m.aop, size := m.size,
    ts := if (s.port p).rx.tsEnabled then tsNow s else 0 }

/-- R58: a message with a payload is its header slot and four data slots. -/
theorem outSlots_of_hasData (s : State) (p : Fin 24) (m : OutMsg) (hd : opHasData m.op = true) :
    outSlots s p m = encodeHdr m.op (outHdr s p m) :: encodeData m.data (b2n m.poison + m.taken * 2 ^ 32) := by
  simp only [outSlots, hd, if_true]
  rfl

/-- R63: TS of a message of the home has 32 bits. -/
theorem outHdr_ts_lt (s : State) (p : Fin 24) (m : OutMsg) : (outHdr s p m).ts < 2 ^ 32 := by
  simp only [outHdr, tsNow]
  split
  · split <;> omega
  · decide

theorem outHdr_fits (s : State) (p : Fin 24) (m : OutMsg) (hdest : m.dest < 256) (htag : m.tag < 4096) (hladdr : m.laddr < 2 ^ 46)
    (hsrc : ownIndex s < 256) (haop : m.aop < 256) (hsize : m.size < 256) : (outHdr s p m).Fits :=
  ⟨hsrc, hdest, htag, hladdr, haop, hsize, outHdr_ts_lt s p m⟩

/-- R65: the home sends ATTR.POISON with a poisoned payload and with no other. -/
theorem attrPoison_outAttr (s : State) (p : Fin 24) (m : OutMsg) : attrPoison (outAttr s p m) = m.poison := by
  have hattr : (m.attr &&& 0xF3).getLsbD 2 = false := by simp
  have hts : (if (s.port p).rx.tsEnabled then 0x08 else 0 : BitVec 8).getLsbD 2 = false := by split <;> rfl
  have hpoison : (if m.poison then 0x04 else 0 : BitVec 8).getLsbD 2 = m.poison := by cases m.poison <;> rfl
  rw [attrPoison, outAttr, BitVec.getLsbD_or, BitVec.getLsbD_or, hattr, hpoison, hts, Bool.false_or, Bool.or_false]

/-- R65: META.POISON is bit 0 of META; DATA_TIME stands above it. -/
theorem testBit_zero_meta (poison : Bool) (taken : Nat) : Nat.testBit ((b2n poison + taken * 2 ^ 32) % 2 ^ 64) 0 = poison := by
  rw [Nat.testBit_zero]
  cases poison <;> simp only [b2n, Bool.false_eq_true, if_true, if_false, decide_eq_true_eq, decide_eq_false_iff_not] <;> omega

/-- Settles O59: the receiver's clauses are the cases of payloadPoison, which a queued message holds by definition; the sender's follows
as header and data slots decode to what the home encoded. -/
theorem poisonOfPayloads : Obligations.PoisonOfPayloads := by
  unfold Obligations.PoisonOfPayloads
  refine ⟨fun op a w hd hm => ?_, fun op a w hd hm => ?_, fun s p op h d w => rfl, fun s p m hd hdest htag hladdr hsrc haop hsize => ?_⟩
  · rw [payloadPoison_lineForm op a w hd hm, Bool.or_eq_true]
  · rw [payloadPoison_maskForm op a w hd hm]
  · have hfits := outHdr_fits s p m hdest htag hladdr hsrc haop hsize
    simp only [outSlots_of_hasData s p m hd, List.headD_cons, List.tail_cons, List.length_cons, encodeData_length,
      decodeHdr_encodeHdr m.op _ hfits, decodeData_encodeData, true_and, and_true]
    exact ⟨attrPoison_outAttr s p m, testBit_zero_meta m.poison m.taken⟩

end Sys2Proof.Machine

/-! PROOFS. What a RD_SHARED is granted (R92): the completion its opening fixes, and the one its closing sends. -/

namespace Sys2Proof.Machine
open Sys2Proof

/-- R92: the three conditions of an exclusive grant. -/
theorem grantsE_iff (s : State) (t : Txn) (d : DirEntry) :
    grantsE s t d = true ↔ attrE t.msg.attr = true ∧ bitOf (cfgGet s keyFlags t.part) 0 = true ∧ (d.state = .I ∨ d.v = reqBit t) := by
  simp only [grantsE, Bool.and_eq_true, Bool.or_eq_true, beq_iff_eq, and_assoc]

theorem flowOp_of_req {t : Txn} {op : Op} (hk : t.kind = .req op) : flowOp t = op := by
  rw [flowOp, hk]

/-- Table HOM-4: the completion of a RD_SHARED as it opens. -/
theorem homeFlow_rdShared_completion (s : State) {t : Txn} (d : DirEntry) (hk : t.kind = .req .rdShared) :
    (homeFlow s t d).2.2 = if grantsE s t d then .dataE else .dataS := by
  rw [homeFlow, flowOp_of_req hk]

/-- R91, R95: a request that grants or reads the line closes with the completion fixed as it opened and the line's value, and with no effect
on the line. -/
theorem closeData_of_grant (s : State) (k : Fin 16) {t : Txn} {g : Op}
    (hk : t.kind = .req .rdShared ∨ t.kind = .req .rdOwn ∨ t.kind = .req .rdOnce ∨ t.kind = .req .upgrade) (hg : t.grant = some g) :
    closeData s k t = .ok (s, g, (txnValue t).1, (txnValue t).2, 0) := by
  obtain hk | hk | hk | hk := hk <;> rw [closeData, hk, hg] <;> rfl

/-- Settles O58: the opening grants DATA_E exactly under grantsE, and the closing sends what the opening fixed. -/
theorem readSharedIsGrantedExclusive : Obligations.ReadSharedIsGrantedExclusive := by
  unfold Obligations.ReadSharedIsGrantedExclusive
  refine ⟨fun s t d hk => ?_, fun s k t g hk hg => ⟨s, _, _, closeData_of_grant s k (.inl hk) hg⟩⟩
  rw [homeFlow_rdShared_completion s d hk]
  exact ite_congr (propext (grantsE_iff s t d)) (fun _ => rfl) (fun _ => rfl)

end Sys2Proof.Machine

/-! PROOFS. Every command's step is watched (R283), and what the watch of a step does: the crossings it finds, CROSSED, and the
notifications it puts into the intake (R284). -/

namespace Sys2Proof.Machine
open Sys2Proof

/-! ## Every command is watched -/

/-- Every command has an effect of its own, and runs as a command that can reset the device or as one that cannot. -/
theorem exec_runs (c : Instr) : ∃ f : State → State, ∀ s, exec c s = if resets c then runReset f s else runCmd f s := by
  cases c <;> exact ⟨_, fun _ => rfl⟩

/-- R283: a step ends with the watch of the command's own effect. -/
theorem exec_watched (c : Instr) : ∃ f : State → State, ∀ s t, exec c s = .next t →
    t = hold s (latch s (watch s (f (begin s)))) ∨ t = hold s (watch s (f (begin s))) := by
  obtain ⟨f, hf⟩ := exec_runs c
  refine ⟨f, fun s t h => ?_⟩
  rw [hf s] at h
  split at h
  · exact .inr (Host.Outcome.next.inj h).symm
  · exact .inl (Host.Outcome.next.inj h).symm

/-! ## The events of watermarks -/

theorem notify_intake {s : State} (e : Event) (h : s.mgmt.intake.length < 256) : (notify s e).mgmt.intake = s.mgmt.intake ++ [e] := by
  rw [notify, if_pos h]

@[simp] theorem notify_wms (s : State) (e : Event) : (notify s e).mgmt.wms = s.mgmt.wms := by
  unfold notify; split <;> rfl

/-- An event of a watermark tells its LEVEL and count, which no notification moves. -/
@[simp] theorem wmEvent_notify (s : State) (e : Event) : wmEvent (notify s e) = wmEvent s := by
  unfold notify; split <;> rfl

/-- Table MBX-5: WM_KIND and WM_INDEX tell the watermarks apart. -/
theorem wmEvent_arg_inj {s : State} {v w : Fin 49} : (wmEvent s v).arg = (wmEvent s w).arg ↔ v = w := by
  refine ⟨fun h => Fin.ext ?_, fun h => h ▸ rfl⟩
  simp only [wmEvent] at h
  split at h <;> split at h <;> omega

/-- The events of watermarks find room in the intake, in order. -/
theorem foldl_notify_intake (ws : List (Fin 49)) {s : State} (h : s.mgmt.intake.length + ws.length ≤ 256) :
    (ws.foldl (fun s w => notify s (wmEvent s w)) s).mgmt.intake = s.mgmt.intake ++ ws.map (wmEvent s) := by
  induction ws generalizing s with
  | nil => simp
  | cons w ws ih =>
    rw [List.length_cons] at h
    have hi := notify_intake (s := s) (wmEvent s w) (by omega)
    rw [List.foldl_cons, ih (by rw [hi, List.length_append, List.length_singleton]; omega), hi, wmEvent_notify, List.append_assoc,
      List.singleton_append, List.map_cons]

@[simp] theorem foldl_notify_wms (ws : List (Fin 49)) (s : State) :
    (ws.foldl (fun s w => notify s (wmEvent s w)) s).mgmt.wms = s.mgmt.wms := by
  induction ws generalizing s with
  | nil => rfl
  | cons w ws ih => rw [List.foldl_cons, ih, notify_wms]

/-! ## The watch of a step -/

/-- R284: the watermarks that cross with effect in a step from old to new. -/
def wmFired (old new : State) : List (Fin 49) := (List.finRange 49).filter fun w => (wmStep old new w).2

theorem watch_wms (old new : State) (w : Fin 49) : (watch old new).mgmt.wms[w] = (wmStep old new w).1 := by
  simp [watch]

/-- An event of a watermark tells nothing of the watermarks' own state. -/
theorem wmEvent_wms (s : State) (v : Vector Watermark 49) : wmEvent { s with mgmt := { s.mgmt with wms := v } } = wmEvent s := rfl

/-- The notifications of a step's watch are those of the watermarks that cross in it. -/
theorem watch_intake (old : State) {new : State} (h : new.mgmt.intake.length + 49 ≤ 256) :
    (watch old new).mgmt.intake = new.mgmt.intake ++ (wmFired old new).map (wmEvent new) := by
  have hlen : (wmFired old new).length ≤ 49 := Nat.le_trans (List.length_filter_le _ _) (Nat.le_of_eq List.length_finRange)
  rw [watch, ← wmFired, foldl_notify_intake, wmEvent_wms]
  exact Nat.le_trans (Nat.add_le_add_left hlen _) h

/-- The WATERMARK notifications of a watermark that a step's watch puts into the intake. -/
def wmSent (old new : State) (w : Fin 49) : Nat :=
  ((watch old new).mgmt.intake.drop new.mgmt.intake.length).countP fun e => e.ntype == 2 && e.arg == (wmEvent new w).arg

theorem wmSent_eq_count (old : State) {new : State} (w : Fin 49) (h : new.mgmt.intake.length + 49 ≤ 256) :
    wmSent old new w = (wmFired old new).count w := by
  rw [wmSent, watch_intake old h, List.drop_left, List.countP_map, List.count]
  refine List.countP_congr fun v _ => ?_
  simp [wmEvent_arg_inj, show (wmEvent new v).ntype = 2 from rfl]

/-- R284: a crossing with effect makes CROSSED 1, and one notification is sent. -/
theorem watch_of_fired {old new : State} {w : Fin 49} (hw : (wmStep old new w).2 = true) (h : new.mgmt.intake.length + 49 ≤ 256) :
    ((watch old new).mgmt.wms[w]).crossed = true ∧ wmSent old new w = 1 := by
  constructor
  · rw [watch_wms]
    exact (congrArg _ hw).trans (Bool.or_true _)
  · rw [wmSent_eq_count old w h, wmFired, List.count_filter (p := fun w => (wmStep old new w).2) hw,
      (List.nodup_finRange 49).count, if_pos (List.mem_finRange w)]

/-- R284: without one CROSSED stays as it is, and nothing is sent. -/
theorem watch_of_not_fired {old new : State} {w : Fin 49} (hw : (wmStep old new w).2 = false) (h : new.mgmt.intake.length + 49 ≤ 256) :
    ((watch old new).mgmt.wms[w]).crossed = (new.mgmt.wms[w]).crossed ∧ wmSent old new w = 0 := by
  constructor
  · rw [watch_wms]
    exact (congrArg _ hw).trans (Bool.or_false _)
  · rw [wmSent_eq_count old w h, List.count_eq_zero]
    intro hmem
    exact Bool.false_ne_true (hw.symm.trans (List.mem_filter.mp hmem).2)

/-! ## When a watermark crosses -/

/-- R284: a rising watermark whose count goes from at most LEVEL to above it crosses with effect while CROSSED is 0. -/
theorem wmStep_fires_rising {old new : State} {w : Fin 49} (hw : w.val < 48) (hlevel : wmLevel new w ≠ 0)
    (hc : (new.mgmt.wms[w]).crossed = false) (hfrom : wmCount old w ≤ wmLevel new w) (hto : wmLevel new w < wmCount new w) :
    (wmStep old new w).2 = true := by
  have hrise : (w.val == 48) = false := beq_false_of_ne (by omega)
  simp only [wmStep, wmCrosses, hrise, hc]
  simp [hlevel, hfrom, hto]

/-- R284, Table HOST-8: the pool's watermark, whose count goes from at least LEVEL to below it, crosses with effect while CROSSED is 0 and
step 14 of start-up has ended. -/
theorem wmStep_fires_falling {old new : State} (hlevel : wmLevel new 48 ≠ 0) (hc : (new.mgmt.wms[(48 : Fin 49)]).crossed = false)
    (hfrom : wmLevel new 48 ≤ wmCount old 48) (hto : wmCount new 48 < wmLevel new 48) (ho : 14 ∈ old.clk.stepDone)
    (hn : 14 ∈ new.clk.stepDone) : (wmStep old new 48).2 = true := by
  have hfall : ((48 : Fin 49).val == 48) = true := rfl
  simp only [wmStep, wmCrosses, hfall, hc]
  simp [hlevel, hfrom, hto, ho, hn]

/-- R284: a crossing has no effect while CROSSED is 1. -/
theorem wmStep_not_fires_of_crossed (old : State) {new : State} {w : Fin 49} (hc : (new.mgmt.wms[w]).crossed = true) :
    (wmStep old new w).2 = false := by
  simp only [wmStep, hc, Bool.not_true, Bool.and_false, Bool.false_and]

/-- R284, R285: with no recheck due, a watermark that is not armed, or whose count does not pass LEVEL in its direction, does not cross. -/
theorem wmStep_not_fires {old new : State} {w : Fin 49} (hdue : ((old.mgmt.wms[w]).recheck && (new.mgmt.wms[w]).recheck) = false)
    (h : wmLevel new w = 0 ∨ (w.val < 48 ∧ (wmLevel new w < wmCount old w ∨ wmCount new w ≤ wmLevel new w)) ∨
      (w.val = 48 ∧ (wmCount old w < wmLevel new w ∨ wmLevel new w ≤ wmCount new w))) :
    (wmStep old new w).2 = false := by
  have hcross : wmCrosses (w.val == 48) false (wmLevel new w) (wmCount old w) (wmCount new w) = false := by
    obtain hlevel | ⟨hw, hcount⟩ | ⟨hw, hcount⟩ := h
    · simp [wmCrosses, hlevel]
    · have hrise : (w.val == 48) = false := beq_false_of_ne (by omega)
      simp only [wmCrosses, hrise, Bool.false_eq_true, if_false, Bool.false_or, Bool.and_eq_false_iff, decide_eq_false_iff_not]
      omega
    · simp only [wmCrosses, hw, beq_self_eq_true, if_true, Bool.false_or, Bool.and_eq_false_iff, decide_eq_false_iff_not]
      omega
  simp only [wmStep, hdue, hcross, Bool.false_and]

/-- Settles O60: a step is the watch of the command's own effect, and its watch sets CROSSED and notifies exactly for the watermarks that
cross with effect. -/
theorem watermarksCrossOnce : Obligations.WatermarksCrossOnce := by
  unfold Obligations.WatermarksCrossOnce
  refine ⟨fun c s t h => ?_, fun s u w hw hlevel hc hs hu => watch_of_fired (wmStep_fires_rising hw hlevel hc hs hu),
    fun s u hlevel hc hs hu hds hdu => watch_of_fired (wmStep_fires_falling hlevel hc hs hu hds hdu), fun s u w hc hroom => ?_,
    fun s u w hc hdue hroom hcount => ?_⟩
  · obtain ⟨f, hf⟩ := exec_watched c
    exact ⟨f (begin s), hf s t h⟩
  · obtain ⟨hsame, hsent⟩ := watch_of_not_fired (wmStep_not_fires_of_crossed s hc) hroom
    exact ⟨hsame.trans hc, hsent⟩
  · obtain ⟨hsame, hsent⟩ := watch_of_not_fired (wmStep_not_fires hdue hcount) hroom
    exact ⟨hsame.trans hc, hsent⟩

end Sys2Proof.Machine
